-- ==== Sys2Proof/Word.lean ====
section
/-! DEFINITION. The part's numbers: bytes, samples, record numbers (00_scope.md section 4.5) and times. -/

namespace Sys2Proof

/-- One byte of a frame, of the transfer area or of a station bus character. -/
abbrev Byte := BitVec 8

/-- A moment or a duration, counted in periods of the 12.288 MHz reference clock (00_scope.md section 4.4). -/
abbrev Time := Nat

/-- One 24-bit two's-complement audio sample (R109). -/
abbrev Sample := BitVec 24

/-- One slot of an audio port: 32 bits, the first on the line most significant (R109). -/
abbrev AudioWord := BitVec 32

/-- What the four audio ports of one direction carry in a frame: 24 slots each (R109). -/
abbrev AudioPorts := Vector (Vector AudioWord 24) 4

/-- Station number, 0..95. -/
abbrev StationNo := Fin 96
/-- Net number, 0..31. -/
abbrev NetNo := Fin 32
/-- Member entry number, 0..383. -/
abbrev EntryNo := Fin 384
/-- Call entry number, 0..23. -/
abbrev CallNo := Fin 24
/-- Cue index, 0..63. -/
abbrev CueNo := Fin 64
/-- Key number of a station, 0..7. -/
abbrev KeyNo := Fin 8
/-- Bus number, 0..7. -/
abbrev BusNo := Fin 8
/-- Bus address, 0..11. -/
abbrev BusAddress := Fin 12
/-- Audio port number, 0..3, of AI0..AI3 and of AO0..AO3 (R109). -/
abbrev AudioPortNo := Fin 4
/-- Slot number of an audio port, 0..23 (R109). -/
abbrev AudioSlotNo := Fin 24
/-- Plan slot number, 0..7. -/
abbrev SlotNo := Fin 8
/-- Level group number, 0..95 (R163). -/
abbrev GroupNo := Fin 96

end Sys2Proof
end

