-- ==== Sys2Proof/Syntax.lean ====
section
/-! DEFINITION. The commands the part takes: one constructor for each row of spec/opcode_table.json, in its order. -/

namespace Sys2Proof

/-- How far a command takes a NET CLOSE, beside its argument. With no number of removals the whole request is processed
and answered. With a number the request reaches that many of its removals and stays in process, so that other events land
before the next (R48; log entry 3). -/
structure CloseTurn where
  /-- The four argument bytes of the request. -/
  argument : BitVec 32
  /-- The removals after which the command leaves off. -/
  removals : Option Nat
deriving DecidableEq, Repr

/-- A command. `t` is the moment at which it is taken, in reference clock periods (log entry 1).
A request of the command port carries the two record bytes and the four argument bytes of its frame,
the first byte most significant (R177). -/
inductive Instr where
  /-- POWER_ON (R169): power-on, with the level of the LOCKMODE pin that start-up samples (R168, R170). -/
  | powerOn (t : Time) (lockmode : Bool)
  /-- PIN_RESET (R169): RESET_N goes low. -/
  | pinReset (t : Time)
  /-- PIN_RESET_RELEASE (R169): RESET_N goes high, with the level of the LOCKMODE pin. -/
  | pinResetRelease (t : Time) (lockmode : Bool)
  /-- STARTUP_END (R170). -/
  | startupEnd (t : Time)
  /-- CP_SELECT_FALL (R158): a falling edge of CP_SEL_N. -/
  | cpSelectFall (t : Time)
  /-- SHORT_FRAME (R160): CP_SEL_N rises before the 64th clock edge. -/
  | shortFrame (t : Time)
  /-- FRAME_STALL (R160): 250 ms with select asserted and no clock edge. -/
  | frameStall (t : Time)
  /-- FRAME_COMPLETE (R159): the 64th clock edge; the frame's first byte is the most significant (R177). -/
  | frameComplete (t : Time) (frame : BitVec 64)
  /-- NOP (R161). -/
  | nop (t : Time) (record : BitVec 16) (argument : BitVec 32)
  /-- SEEK (R162). -/
  | seek (t : Time) (record : BitVec 16) (argument : BitVec 32)
  /-- PUT (R162). -/
  | put (t : Time) (record : BitVec 16) (argument : BitVec 32)
  /-- GET (R162). -/
  | get (t : Time) (record : BitVec 16) (argument : BitVec 32)
  /-- RESTART (R169), with the level of the LOCKMODE pin that the reset samples. -/
  | restart (t : Time) (record : BitVec 16) (argument : BitVec 32) (lockmode : Bool)
  /-- STATION SET (R4, R5). -/
  | stationSet (t : Time) (record : BitVec 16) (argument : BitVec 32)
  /-- STATION CLEAR (R7). -/
  | stationClear (t : Time) (record : BitVec 16) (argument : BitVec 32)
  /-- STATION READ (R8). -/
  | stationRead (t : Time) (record : BitVec 16) (argument : BitVec 32)
  /-- KEYMAP SET (R13). -/
  | keymapSet (t : Time) (record : BitVec 16) (argument : BitVec 32)
  /-- GATE SET (R10). -/
  | gateSet (t : Time) (record : BitVec 16) (argument : BitVec 32)
  /-- BUS CONFIGURE (R19). -/
  | busConfigure (t : Time) (record : BitVec 16) (argument : BitVec 32)
  /-- BUS START (R28). -/
  | busStart (t : Time) (record : BitVec 16) (argument : BitVec 32)
  /-- BUS STOP (R33). -/
  | busStop (t : Time) (record : BitVec 16) (argument : BitVec 32)
  /-- NET OPEN (R40). -/
  | netOpen (t : Time) (record : BitVec 16) (argument : BitVec 32)
  /-- NET CLOSE (R47), whole or in parts (R48). -/
  | netClose (t : Time) (record : BitVec 16) (turn : CloseTurn)
  /-- MEMBER ADD (R41). -/
  | memberAdd (t : Time) (record : BitVec 16) (argument : BitVec 32)
  /-- MEMBER CHANGE (R44). -/
  | memberChange (t : Time) (record : BitVec 16) (argument : BitVec 32)
  /-- MEMBER REMOVE (R46). -/
  | memberRemove (t : Time) (record : BitVec 16) (argument : BitVec 32)
  /-- NET READ (R52). -/
  | netRead (t : Time) (record : BitVec 16) (argument : BitVec 32)
  /-- LEVEL ONE (R164). -/
  | levelOne (t : Time) (record : BitVec 16) (argument : BitVec 32)
  /-- LEVEL FOUR (R164). -/
  | levelFour (t : Time) (record : BitVec 16) (argument : BitVec 32)
  /-- LEVEL FLUSH (R166). -/
  | levelFlush (t : Time) (record : BitVec 16) (argument : BitVec 32)
  /-- REMOTE TALK (R65). -/
  | remoteTalk (t : Time) (record : BitVec 16) (argument : BitVec 32)
  /-- REMOTE RELEASE (R67). -/
  | remoteRelease (t : Time) (record : BitVec 16) (argument : BitVec 32)
  /-- CALL PLACE (R78). -/
  | callPlace (t : Time) (record : BitVec 16) (argument : BitVec 32)
  /-- CALL END (R84). -/
  | callEnd (t : Time) (record : BitVec 16) (argument : BitVec 32)
  /-- CALL READ (R88). -/
  | callRead (t : Time) (record : BitVec 16) (argument : BitVec 32)
  /-- PLAN READ (R108). -/
  | planRead (t : Time) (record : BitVec 16) (argument : BitVec 32)
  /-- CUE DEFINE (R126). -/
  | cueDefine (t : Time) (record : BitVec 16) (argument : BitVec 32)
  /-- CUE STANDBY (R128). -/
  | cueStandby (t : Time) (record : BitVec 16) (argument : BitVec 32)
  /-- CUE GO (R132). -/
  | cueGo (t : Time) (record : BitVec 16) (argument : BitVec 32)
  /-- CUE CANCEL (R135). -/
  | cueCancel (t : Time) (record : BitVec 16) (argument : BitVec 32)
  /-- CUE RETIRE (R137). -/
  | cueRetire (t : Time) (record : BitVec 16) (argument : BitVec 32)
  /-- CUE READ (R142). -/
  | cueRead (t : Time) (record : BitVec 16) (argument : BitVec 32)
  /-- CUE SUMMARY (R143). -/
  | cueSummary (t : Time) (record : BitVec 16) (argument : BitVec 32)
  /-- SHOW LOCK (R168). -/
  | showLock (t : Time) (record : BitVec 16) (argument : BitVec 32)
  /-- SHOW UNLOCK (R168). -/
  | showUnlock (t : Time) (record : BitVec 16) (argument : BitVec 32)
  /-- NOTICE TAKE with a form byte other than DETAIL (R173). -/
  | noticeTake (t : Time) (record : BitVec 16) (argument : BitVec 32)
  /-- NOTICE TAKE with the form byte DETAIL (R173). -/
  | noticeDetail (t : Time) (record : BitVec 16) (argument : BitVec 32)
  /-- NOTICE MASK (R174). -/
  | noticeMask (t : Time) (record : BitVec 16) (argument : BitVec 32)
  /-- POLL_COMPLETELY_SENT (R35): the stop bit of the poll's check byte has been sent. -/
  | pollCompletelySent (t : Time) (bus : BusNo)
  /-- WINDOW_CLOSE (R22): the reply window closes with no reply begun. -/
  | windowClose (t : Time) (bus : BusNo)
  /-- REPLY_CHARACTER (R24): a character, whose bits on the line are those of `characterBits` (R20): its data, its parity
  bit (not on the line in mode NONE) and its stop bit. -/
  | replyCharacter (t : Time) (bus : BusNo) (data : Byte) (parityBit stopBit : Bool)
  /-- REPLY_GAP (R24): two character times with no start bit after a reply character. -/
  | replyGap (t : Time) (bus : BusNo)
  /-- GUARD_END (R22): the guard ends, and with it the slot. -/
  | guardEnd (t : Time) (bus : BusNo)
  /-- DENY_MARK_EXPIRY (R16). -/
  | denyMarkExpiry (t : Time) (station : StationNo) (key : KeyNo)
  /-- REMOTE_EXPIRY (R66). -/
  | remoteExpiry (t : Time) (station : StationNo) (net : NetNo)
  /-- RING_EXPIRY (R82). -/
  | ringExpiry (t : Time) (call : CallNo)
  /-- ACK_TIMER_EXPIRY (R131). -/
  | ackTimerExpiry (t : Time) (cue : CueNo)
  /-- GO_TIMER_END (R134). -/
  | goTimerEnd (t : Time) (cue : CueNo)
  /-- GO_LAMP_EXPIRY (R152). -/
  | goLampExpiry (t : Time) (station : StationNo)
  /-- AUDIO_FRAME (R113): a rising edge of AU_FS, with what AI0..AI3 carry in every slot of the frame (R109). -/
  | audioFrame (t : Time) (ports : AudioPorts)
  /-- DRAIN_COMPLETION (R102): the Planner takes the report of one slot of one plan. -/
  | drainCompletion (t : Time) (listener : StationNo) (slot : SlotNo)
  /-- BLOCK_END (R119). -/
  | blockEnd (t : Time)
  /-- GATE_HOLD_EXPIRY (R68). -/
  | gateHoldExpiry (t : Time) (station : StationNo)
  /-- AUDIO_CLOCK_LOST (R122). -/
  | audioClockLost (t : Time)
  /-- AUDIO_CLOCK_RETURN (R123): the AU_FS edge of the return, with what AI0..AI3 carry in the frame it begins. -/
  | audioClockReturn (t : Time) (ports : AudioPorts)
  /-- STAGING_AGE_EXPIRY (R167). -/
  | stagingAgeExpiry (t : Time)
  /-- TRANSACTION_END (R156): CP_SEL_N rises after the frame has completed or stalled. -/
  | transactionEnd (t : Time)
  /-- STOPPED_BUS_CHARACTER_COMPLETE (R33): the last character of a poll that BUS STOP abandoned has been sent. -/
  | stoppedBusCharacterComplete (t : Time) (bus : BusNo)
deriving DecidableEq, Repr

end Sys2Proof
end

