-- ==== Sys2Proof/Decode.lean ====
section
/-! DEFINITION. The commands that a word spells by the bits of spec/opcode_table.json. No row of the table has bits
(spec/98_reader.md: 68 rows, none with fixed bits or fields), so no word spells a command. The byte layouts that the
manual does give, the request frames of the command port and the records of the transfer area, are read in
Machine/Operands.lean. -/

namespace Sys2Proof

/-- The command that the table's bits read from `nbits` bits `w`: none, because no row has bits. -/
def decodeTableWord (_nbits _w : Nat) : Option Instr := none

end Sys2Proof
end

