-- ==== Sys2Proof/Config.lean ====
section
/-! DEFINITION. What is fixed for the part: the sizes of its pools and lists, and the one point in which two rules of the
manual differ and neither is set aside, which is left free. -/

namespace Sys2Proof.Config

/-- Talk intents in the pool (R54). -/
def intentPool : Nat := 256

/-- Members a net may have (R41). -/
def netMembers : Nat := 48

/-- Entries a standby queue may hold (R144). -/
def queueEntries : Nat := 4

/-- Frames in a block (R119). -/
def blockFrames : Nat := 240

/-- Whether the talkers of a net path that is formed are taken in rank order, as R104 says of the candidates that arrive
in one change, or in ascending station number, as R93 says of this change. A free value: no rule sets the other aside, so
nothing here says which (log entry 10). -/
opaque formedByRank : Bool

end Sys2Proof.Config
end

