-- ==== Sys2Proof/Machine/State.lean ====
section
/-! DEFINITION. Everything the manual gives the part to hold, block by block (00_scope.md section 2), as plain data.
The default of each field is its reset value, the same after each of the three resets (R169). -/

namespace Sys2Proof.Machine

/-! ## Station Table (R1) -/

/-- The kind of a station (R1). PANEL and BELTPACK are stations with audio. -/
inductive Kind where
  | panel | beltpack | cuebox
deriving DecidableEq, Repr

/-- The priority class of a station, from lowest to highest (R1). -/
inductive PriorityClass where
  | crew | operator | booth | stageManager
deriving DecidableEq, Repr

/-- The mode of a TALK binding (R12). -/
inductive TalkMode where
  | momentary | latching | auto
deriving DecidableEq, Repr

/-- The meaning of one key (R12). -/
inductive Binding where
  | none
  | talk (net : NetNo) (mode : TalkMode)
  | call (station : StationNo)
  | answer
  | allCall
  | standby (cue : CueNo)
  | go (cue : CueNo)
  | ack
deriving DecidableEq, Repr

/-- One key of a station: its binding, its deny mark with the expiry time (R16) and its stale mark (R14, R15). -/
structure Key where
  binding : Binding := .none
  deny : Option Time := none
  stale : Bool := false
deriving DecidableEq, Repr

/-- A station record (R1). The defaults are those of an unconfigured record (R3). -/
structure Station where
  configured : Bool := false
  kind : Kind := .panel
  cls : PriorityClass := .crew
  trim : Int := 0
  master : Int := 0
  dim : Int := 12
  duck : Int := 12
  gateEnable : Bool := false
  gateOpen : Int := -40
  gateClose : Int := -48
  gateHold : Nat := 40
  keys : Vector Key 8 := Vector.replicate 8 {}
deriving DecidableEq, Repr

/-! ## Station Bus Controller (R18, R22, R27) -/

/-- The parity mode of a bus (R18, R20). -/
inductive Parity where
  | none | odd | even | zero
deriving DecidableEq, Repr

/-- A character of a reply as received (R20, R24). -/
structure ReplyChar where
  data : Byte
  parityError : Bool
  framingError : Bool
deriving DecidableEq, Repr

/-- The phase of a slot (R22). -/
inductive SlotPhase where
  | poll | window | reply | guard
deriving DecidableEq, Repr

/-- The slot in progress on a bus (R21 to R24): the address polled, the poll's five bytes, whether its standby lamp
was FLASH (R35), the characters received, oldest first, whether a fifth start bit was seen, the reply's arrival time
(R30), and whether the outcome is to be discarded because the station was cleared (R21). -/
structure BusSlot where
  address : BusAddress
  poll : Vector Byte 5
  flash : Bool
  phase : SlotPhase := .poll
  chars : List ReplyChar := []
  extra : Bool := false
  arrival : Time := 0
  discarded : Bool := false
deriving DecidableEq, Repr

/-- A bus record (R18). The current address is that of `slot`; it is absent when `slot` is none. `driverEnable` is the
pin SBn_DE. `finishing` says that the last character of a poll that BUS STOP abandoned is still on the line (R33). -/
structure Bus where
  running : Bool := false
  rate : Nat := 3
  parity : Parity := .even
  slot : Option BusSlot := none
  driverEnable : Bool := false
  finishing : Bool := false
deriving DecidableEq, Repr

/-- The link state of a station (R27). -/
inductive LinkState where
  | unpolled | probing | up | down
deriving DecidableEq, Repr

/-- The link record of a station (R27); key k is down in `keys` when bit k is set. -/
structure Link where
  state : LinkState := .unpolled
  misses : Nat := 0
  keys : BitVec 8 := 0
deriving DecidableEq, Repr

/-- What the Station Bus Controller owns. -/
structure BusController where
  buses : Vector Bus 8 := Vector.replicate 8 {}
  links : Vector Link 96 := Vector.replicate 96 {}
deriving DecidableEq, Repr

/-! ## Net Unit (R38, R39) -/

/-- The rights of a member entry (R39). -/
inductive Rights where
  | talk | listen | both
deriving DecidableEq, Repr

/-- A member entry in use (R39); `level` is none for OFF. -/
structure Member where
  net : NetNo
  station : StationNo
  rights : Rights
  level : Option Int
deriving DecidableEq, Repr

/-- A net record (R38); `isOpen` is false for FREE, and `members` are entry numbers in join order. -/
structure Net where
  isOpen : Bool := false
  name : Vector Byte 8 := Vector.replicate 8 0
  locked : Bool := false
  members : List EntryNo := []
deriving DecidableEq, Repr

/-- What the Net Unit owns: the net records and the member pool, in which none is a free entry. -/
structure NetUnit where
  nets : Vector Net 32 := Vector.replicate 32 {}
  pool : Vector (Option Member) 384 := Vector.replicate 384 none
deriving DecidableEq, Repr

/-! ## Talk Unit (R54, R56, R57, R62, R68, R70) -/

/-- The phase of a KEY origin (R54). -/
inductive KeyPhase where
  | held (press : Time)
  | latched
deriving DecidableEq, Repr

/-- A KEY origin of a talk intent (R54). -/
structure KeyOrigin where
  key : KeyNo
  mode : TalkMode
  phase : KeyPhase
deriving DecidableEq, Repr

/-- A talk intent in use (R54): `remote` is the REMOTE origin's expiry time, `arrival` the arrival number, which is
present exactly while the talker flag is set. -/
structure Intent where
  station : StationNo
  net : NetNo
  key : Option KeyOrigin := none
  remote : Option Time := none
  arrival : Option Nat := none
deriving DecidableEq, Repr

/-- An active all-call (R70). -/
structure AllCall where
  owner : StationNo
  key : KeyNo
  arrival : Nat
deriving DecidableEq, Repr

/-- The voice gate of a station (R68). -/
structure Gate where
  isOpen : Bool := false
  hold : Nat := 0
deriving DecidableEq, Repr

/-- What the Talk Unit owns. The intents in use stand in ascending order of station, then net; the pool's free intents
are those not listed. -/
structure TalkUnit where
  intents : List Intent := []
  talkers : Vector (List StationNo) 32 := Vector.replicate 32 []
  arrivals : Nat := 0
  allCall : Option AllCall := none
  gates : Vector Gate 96 := Vector.replicate 96 {}
  releaseIgnore : Vector (Vector Bool 8) 96 := Vector.replicate 96 (Vector.replicate 8 false)
deriving DecidableEq, Repr

/-! ## Call Unit (R76) -/

/-- Who placed a call (R76). -/
inductive CallOrigin where
  | key | host
deriving DecidableEq, Repr

/-- The state of a call, with the ring expiry or the arrival number that it has (R76). -/
inductive CallState where
  | ringing (expiry : Time)
  | connected (arrival : Nat)
deriving DecidableEq, Repr

/-- A call entry in use (R76). -/
structure Call where
  caller : StationNo
  callee : StationNo
  origin : CallOrigin
  state : CallState
deriving DecidableEq, Repr

/-! ## Listen Planner, with the Mix Engine's coefficients (R89, R92, R113, R114) -/

/-- The state of a plan slot with its occupant and next (R89). -/
inductive SlotUse where
  | free
  | active (occupant : StationNo)
  | draining (occupant : StationNo) (next : Option StationNo)
deriving DecidableEq, Repr

/-- A plan slot: its state and target coefficient (R89), and the Mix Engine's current coefficient (R113) and reported
mark (R114) for it. -/
structure Slot where
  use : SlotUse := .free
  target : Nat := 0
  current : Nat := 0
  reported : Bool := false
deriving DecidableEq, Repr

/-- The route of a path (R90, R91). -/
inductive PathKind where
  | net (net : NetNo)
  | call
  | allCall
deriving DecidableEq, Repr

/-- A path with its level and arrival number (R90, R91). -/
structure Path where
  kind : PathKind
  level : Int
  arrival : Nat
deriving DecidableEq, Repr

/-- A candidate record: the source station and its paths, net paths by net, then the call path, then the all-call path
(R92). Its level, arrival and all-call flag are functions of the paths; its class is read from the Station Table. -/
structure Candidate where
  station : StationNo
  paths : List Path
deriving DecidableEq, Repr

/-- A plan (R89): its slots, its waiting list, best first, and its candidate records in ascending station number. -/
structure Plan where
  slots : Vector Slot 8 := Vector.replicate 8 {}
  waiting : List StationNo := []
  candidates : List Candidate := []
deriving DecidableEq, Repr

/-! ## Mix Engine (R110, R117, R119, R120, R122) -/

/-- The Mix Engine's state of one station's audio channel: the overload flag (R117), the block peak (R120), the output
sample computed in the last frame and the one on the output port in the present frame (R110). `ended` is the peak of a
block that has ended and whose BLOCK_END has not been taken (log entry 8). -/
structure Channel where
  overload : Bool := false
  peak : Nat := 0
  ended : Option Nat := none
  computed : Int := 0
  sent : Int := 0
deriving DecidableEq, Repr

/-- What the Mix Engine owns apart from the coefficients: the channels, the block counter (R119), whether a block has
ended and waits for its BLOCK_END (log entry 8), the audio clock state and the time of the last edge (R122). -/
structure MixEngine where
  channels : Vector Channel 96 := Vector.replicate 96 {}
  frames : Nat := 0
  blockEnded : Bool := false
  clockPresent : Bool := true
  lastEdge : Time := 0
deriving DecidableEq, Repr

/-! ## Cue Unit (R125) -/

/-- The state of a cue in use (R125); a VACANT entry is none in the table. -/
inductive CueState where
  | staged | standby | ready | go
deriving DecidableEq, Repr

/-- The policy of a cue (R125). -/
inductive Policy where
  | all | any
deriving DecidableEq, Repr

/-- The status of a target or of a queue entry (R125, R144). -/
inductive EntryStatus where
  | pending | acked | lost
deriving DecidableEq, Repr

/-- A target with its per-target status, none for absent (R125). -/
structure Target where
  station : StationNo
  status : Option EntryStatus
deriving DecidableEq, Repr

/-- A cue entry in use (R125). The timers hold their expiry or end time while they run. -/
structure Cue where
  state : CueState
  department : Nat
  number : Nat
  point : Nat
  policy : Policy
  direct : Bool
  repeatable : Bool
  locked : Bool
  ackWindow : Nat
  goDisplay : Nat
  targets : List Target
  unconfirmed : Bool := false
  noAck : Bool := false
  ackTimer : Option Time := none
  goTimer : Option Time := none
deriving DecidableEq, Repr

/-! ## Lamp Unit (R144, R152) -/

/-- An entry of a standby queue (R144). `listed` says that the entry is on the list of the poll now being sent to the
station (R35) and has been PENDING without interruption since that poll was built (R147; log entry 17). -/
structure QueueEntry where
  cue : CueNo
  status : EntryStatus
  shown : Bool := false
  listed : Bool := false
deriving DecidableEq, Repr

/-- What the Lamp Unit holds for one station: its standby queue, oldest first (R144), and its go-lamp timer's end time
while it runs (R152). -/
structure Lamp where
  queue : List QueueEntry := []
  goLamp : Option Time := none
deriving DecidableEq, Repr

/-! ## Command Port (R156 to R170) -/

/-- The requests of the command port (R177). -/
inductive RequestKind where
  | nop | seek | put | get | restart
  | stationSet | stationClear | stationRead | keymapSet | gateSet
  | busConfigure | busStart | busStop
  | netOpen | netClose | memberAdd | memberChange | memberRemove | netRead
  | levelOne | levelFour | levelFlush | remoteTalk | remoteRelease
  | callPlace | callEnd | callRead | planRead
  | cueDefine | cueStandby | cueGo | cueCancel | cueRetire | cueRead | cueSummary
  | showLock | showUnlock | noticeTake | noticeMask
deriving DecidableEq, Repr

/-- The statuses of a completed reply: DONE and the refusal codes (section 10.9). -/
inductive Status where
  | done | badKind | badRecord | noRecord | existing | duplicate | full | busy | locked | fixed | referenced
  | notAllowed | notStanding | already | active | tooLate | queueFull | misaligned | badFormat
deriving DecidableEq, Repr

/-- A request: its kind, record number and argument (R156). -/
structure Request where
  kind : RequestKind
  record : BitVec 16
  argument : BitVec 32
deriving DecidableEq, Repr

/-- The content of the reply slot (R158). The echoes are the bytes received. -/
inductive Reply where
  | none
  | inProgress (kind : Byte) (record : BitVec 16)
  | completed (status : Status) (kind : Byte) (record : BitVec 16) (value : BitVec 24)
  | checkFailed (kind : Byte) (record : BitVec 16)
  | starting
deriving DecidableEq, Repr

/-- Where the port stands in a transaction, and with it the level of CP_SEL_N, which is high only in `released`
(R156, R160): select released; taking bits; frame complete; stalled; or select found low at a reset, so that the port
waits for it to go high. -/
inductive Transaction where
  | released | receiving | completed | stalled | awaitingRelease
deriving DecidableEq, Repr

/-- The staging buffer while it holds a write: its group, the values staged at the group's eight addresses, with OFF as
-128, and the expiry of its age timer (R165). -/
structure Staging where
  group : GroupNo
  values : Vector (Option Int) 8
  expiry : Time
deriving DecidableEq, Repr

/-- What the Command Port owns. `staging` is none while the buffer is empty and its timer stopped. -/
structure Port where
  transaction : Transaction := .released
  latched : Reply := .starting
  reply : Reply := .starting
  inProcess : Option Request := none
  area : Vector Byte 48 := Vector.replicate 48 0
  cursor : Nat := 0
  staging : Option Staging := none
  showLock : Bool := false
  lockmode : Bool := false
deriving DecidableEq, Repr

/-! ## Notice Unit (R171) -/

/-- The notice kinds in priority order (R171). -/
inductive NoticeKind where
  | restarted | linkDown | audioClock | cueNoack | callEnded | overload | remoteExpired | linkUp | cueDone
deriving DecidableEq, Repr

/-- A pending record (R171). `extra` is 0 for the kinds that hold none (R173). -/
structure PendingNotice where
  count : Nat
  first : Nat
  latest : Nat
  extra : Nat
deriving DecidableEq, Repr

/-- The taken record (R171). -/
structure TakenNotice where
  kind : NoticeKind
  first : Nat
  extra : Nat
deriving DecidableEq, Repr

/-- What the Notice Unit owns: the nine pending records in priority order, none for a clear one, the mask, bit k - 1 for
the kind of code k (R174), and the taken record. -/
structure NoticeUnit where
  records : Vector (Option PendingNotice) 9 := Vector.replicate 9 none
  mask : BitVec 9 := 0
  taken : Option TakenNotice := none
deriving DecidableEq, Repr

/-! ## The part -/

/-- The kind of a reset (R169). -/
inductive ResetKind where
  | power | pin | command
deriving DecidableEq, Repr

/-- Whether the part is held in reset by RESET_N low, runs its start-up, or has ended it (R169, R170). -/
inductive PartPhase where
  | held
  | starting (kind : ResetKind)
  | running
deriving DecidableEq, Repr

/-- The whole state: the eleven blocks of section 2, the part's phase, the reference clock's time and the queue of
commands that wait, first in, first out. -/
structure State where
  phase : PartPhase := .starting .power
  now : Time := 0
  stations : Vector Station 96 := Vector.replicate 96 {}
  bus : BusController := {}
  nets : NetUnit := {}
  talk : TalkUnit := {}
  calls : Vector (Option Call) 24 := Vector.replicate 24 none
  plans : Vector Plan 96 := Vector.replicate 96 {}
  mix : MixEngine := {}
  cues : Vector (Option Cue) 64 := Vector.replicate 64 none
  lamps : Vector Lamp 96 := Vector.replicate 96 {}
  port : Port := {}
  notices : NoticeUnit := {}
  pending : List Instr := []
deriving DecidableEq, Repr

/-- The machine right after a power-on reset with LOCKMODE at 0: start-up runs (R169, R170; log entry 4). -/
def State.reset : State := {}

/-- Why a command could stop the part. The manual names no such event: a request that cannot be taken is answered with
a status, a refused press sets a deny mark, and an event without its occasion changes nothing. So there is no reason,
and nothing raises one (safe). -/
inductive Fault where
deriving DecidableEq, Repr

/-- Why a command has no meaning. -/
inductive Refusal where
  /-- Raised by `exec` for a row of the table that has no meaning yet; no row is left so (safe). -/
  | notModelled (mnemonic : String)
deriving DecidableEq, Repr

/-- The outcome of a command. -/
abbrev Result := Host.Outcome State Fault Refusal

end Sys2Proof.Machine
end

