-- ==== Sys2Proof/Machine/Ops.lean ====
section
/-! DEFINITION. The named operations on the part's records: reading and changing one entry of a table, the reference
clock, and the facts about a station that every block reads. -/

namespace Sys2Proof.Machine

/-! ## Tables -/

/-- A table with entry `i` changed by `f`. -/
def modifyAt {α : Type} {n : Nat} (v : Vector α n) (i : Fin n) (f : α → α) : Vector α n :=
  v.set i.val (f (v.get i)) i.isLt

/-- A table with every entry changed by `f`, which is given the entry's number. -/
def mapTable {α : Type} {n : Nat} (v : Vector α n) (f : Fin n → α → α) : Vector α n :=
  Vector.ofFn fun i => f i (v.get i)

/-- Every number of a table of `n` records, ascending. -/
def allOf (n : Nat) : List (Fin n) := List.finRange n

/-- An element inserted into a list before the first element that it precedes. -/
def insertBy {α : Type} (before : α → α → Bool) (x : α) : List α → List α
  | [] => [x]
  | y :: ys => if before x y then x :: y :: ys else y :: insertBy before x ys

/-- A list put in order by insertion; elements that neither precede keep their order. -/
def sortBy {α : Type} (before : α → α → Bool) (xs : List α) : List α :=
  xs.foldl (fun acc x => insertBy before x acc) []

/-- Whether a list holds an element twice. -/
def hasTwice {α : Type} [DecidableEq α] : List α → Bool
  | [] => false
  | x :: xs => xs.contains x || hasTwice xs

/-- A whole number brought into a range, to the nearer end (section 4.7, "clamped"). -/
def clamp (low high x : Int) : Int := max low (min high x)

/-! ## Durations (section 4.4) -/

/-- Milliseconds in periods of the 12.288 MHz reference clock. -/
def millis (n : Nat) : Time := n * 12288

/-- Seconds in periods of the reference clock. -/
def seconds (n : Nat) : Time := n * 12288000

/-- How long a deny mark lasts (R16). -/
def denyTime : Time := seconds 2

/-- An AUTO release less than this after the press latches the talk (R62). -/
def autoTime : Time := millis 500

/-- How long a call rings (R77, R78). -/
def ringTime : Time := seconds 30

/-- The age at which the staging buffer is flushed (R165). -/
def stagingTime : Time := millis 20

/-- The time without an AU_FS edge after which the audio clock is lost (R122). -/
def clockLossTime : Time := millis 1

/-- The reference clock brought to the moment `t` of a command; it never runs back (log entry 1). -/
def State.clockTo (s : State) (t : Time) : State := { s with now := max s.now t }

/-- Whether a time held by a timer has been reached. -/
def State.reached (s : State) (expiry : Time) : Bool := expiry ≤ s.now

/-! ## Records -/

/-- Station record `i` (R1). -/
def State.station (s : State) (i : StationNo) : Station := s.stations.get i

/-- The state with station record `i` changed. -/
def State.modStation (s : State) (i : StationNo) (f : Station → Station) : State :=
  { s with stations := modifyAt s.stations i f }

/-- Key `k` of station `i`. -/
def State.key (s : State) (i : StationNo) (k : KeyNo) : Key := (s.station i).keys.get k

/-- The state with key `k` of station `i` changed. -/
def State.modKey (s : State) (i : StationNo) (k : KeyNo) (f : Key → Key) : State :=
  s.modStation i fun r => { r with keys := modifyAt r.keys k f }

/-- Bus record `b` (R18). -/
def State.busRec (s : State) (b : BusNo) : Bus := s.bus.buses.get b

/-- The state with bus record `b` changed. -/
def State.modBus (s : State) (b : BusNo) (f : Bus → Bus) : State :=
  { s with bus := { s.bus with buses := modifyAt s.bus.buses b f } }

/-- The link record of station `i` (R27). -/
def State.link (s : State) (i : StationNo) : Link := s.bus.links.get i

/-- The state with the link record of station `i` changed. -/
def State.modLink (s : State) (i : StationNo) (f : Link → Link) : State :=
  { s with bus := { s.bus with links := modifyAt s.bus.links i f } }

/-- Net record `n` (R38). -/
def State.net (s : State) (n : NetNo) : Net := s.nets.nets.get n

/-- The state with net record `n` changed. -/
def State.modNet (s : State) (n : NetNo) (f : Net → Net) : State :=
  { s with nets := { s.nets with nets := modifyAt s.nets.nets n f } }

/-- Member entry `e`, none when it is free (R39). -/
def State.member (s : State) (e : EntryNo) : Option Member := s.nets.pool.get e

/-- The state with member entry `e` changed. -/
def State.modMember (s : State) (e : EntryNo) (f : Option Member → Option Member) : State :=
  { s with nets := { s.nets with pool := modifyAt s.nets.pool e f } }

/-- The talker list of net `n` (R57). -/
def State.talkersOf (s : State) (n : NetNo) : List StationNo := s.talk.talkers.get n

/-- The state with the talker list of net `n` changed. -/
def State.modTalkers (s : State) (n : NetNo) (f : List StationNo → List StationNo) : State :=
  { s with talk := { s.talk with talkers := modifyAt s.talk.talkers n f } }

/-- The gate record of station `i` (R68). -/
def State.gate (s : State) (i : StationNo) : Gate := s.talk.gates.get i

/-- The state with the gate record of station `i` changed. -/
def State.modGate (s : State) (i : StationNo) (f : Gate → Gate) : State :=
  { s with talk := { s.talk with gates := modifyAt s.talk.gates i f } }

/-- The release-ignore mark of key `k` of station `i` (R62). -/
def State.ignoresRelease (s : State) (i : StationNo) (k : KeyNo) : Bool := (s.talk.releaseIgnore.get i).get k

/-- The state with the release-ignore mark of key `k` of station `i` set to `b`. -/
def State.setIgnoreRelease (s : State) (i : StationNo) (k : KeyNo) (b : Bool) : State :=
  { s with talk := { s.talk with
      releaseIgnore := modifyAt s.talk.releaseIgnore i fun v => modifyAt v k fun _ => b } }

/-- The plan of station `i` (R89). -/
def State.plan (s : State) (i : StationNo) : Plan := s.plans.get i

/-- The state with the plan of station `i` changed. -/
def State.modPlan (s : State) (i : StationNo) (f : Plan → Plan) : State :=
  { s with plans := modifyAt s.plans i f }

/-- The audio channel of station `i`. -/
def State.channel (s : State) (i : StationNo) : Channel := s.mix.channels.get i

/-- The state with the audio channel of station `i` changed. -/
def State.modChannel (s : State) (i : StationNo) (f : Channel → Channel) : State :=
  { s with mix := { s.mix with channels := modifyAt s.mix.channels i f } }

/-- Call entry `c`, none when it is free (R76). -/
def State.call (s : State) (c : CallNo) : Option Call := s.calls.get c

/-- The state with call entry `c` set to `v`. -/
def State.setCall (s : State) (c : CallNo) (v : Option Call) : State :=
  { s with calls := modifyAt s.calls c fun _ => v }

/-- Cue entry `c`, none when it is VACANT (R125). -/
def State.cue (s : State) (c : CueNo) : Option Cue := s.cues.get c

/-- The state with cue entry `c` set to `v`. -/
def State.setCue (s : State) (c : CueNo) (v : Option Cue) : State :=
  { s with cues := modifyAt s.cues c fun _ => v }

/-- What the Lamp Unit holds for station `i` (R144, R152). -/
def State.lamp (s : State) (i : StationNo) : Lamp := s.lamps.get i

/-- The state with the Lamp Unit's record of station `i` changed. -/
def State.modLamp (s : State) (i : StationNo) (f : Lamp → Lamp) : State :=
  { s with lamps := modifyAt s.lamps i f }

/-! ## Facts about a station -/

/-- PANEL and BELTPACK are kinds with audio (R1). -/
def Kind.hasAudio : Kind → Bool
  | .panel | .beltpack => true
  | .cuebox => false

/-- A listener is a configured station with audio (R1). -/
def Station.isListener (r : Station) : Bool := r.configured && r.kind.hasAudio

/-- Whether station `i` is UP (R27). -/
def State.isUp (s : State) (i : StationNo) : Bool := (s.link i).state == .up

/-- A plan is in use while its station is a configured station with audio and UP (R89). -/
def State.planInUse (s : State) (i : StationNo) : Bool := (s.station i).isListener && s.isUp i

/-- The bus of a station (R2). -/
def busOf (i : StationNo) : BusNo := ⟨i.val / 12, by omega⟩

/-- The bus address of a station (R2). -/
def addressOf (i : StationNo) : BusAddress := ⟨i.val % 12, by omega⟩

/-- The station at an address of a bus (R2). -/
def stationAt (b : BusNo) (a : BusAddress) : StationNo := ⟨b.val * 12 + a.val, by omega⟩

/-- The audio port of a station, input and output (R2, R109). -/
def audioPortOf (i : StationNo) : AudioPortNo := ⟨i.val / 24, by omega⟩

/-- The slot of a station in its audio port (R2, R109). -/
def audioSlotOf (i : StationNo) : AudioSlotNo := ⟨i.val % 24, by omega⟩

/-- The station of a slot of an audio port (R2, R109). -/
def audioStation (p : AudioPortNo) (k : AudioSlotNo) : StationNo := ⟨p.val * 24 + k.val, by omega⟩

/-- The entry that station `i` holds in net `n`, with its number (R41: at most one). -/
def State.entryOf (s : State) (i : StationNo) (n : NetNo) : Option (EntryNo × Member) :=
  (s.net n).members.findSome? fun e =>
    match s.member e with
    | some m => if m.station = i then some (e, m) else none
    | none => none

/-- Whether rights include TALK (R39). -/
def Rights.canTalk : Rights → Bool
  | .talk | .both => true
  | .listen => false

/-- Whether rights include LISTEN (R39). -/
def Rights.canListen : Rights → Bool
  | .listen | .both => true
  | .talk => false

/-- Whether station `i` holds TALK right in net `n`. -/
def State.mayTalk (s : State) (i : StationNo) (n : NetNo) : Bool :=
  match s.entryOf i n with
  | some (_, m) => m.rights.canTalk
  | none => false

/-- The level at which station `i` hears net `n`: that of its entry, where the net is OPEN, the entry has LISTEN right
and the level is not OFF (R90). -/
def State.listenLevel (s : State) (i : StationNo) (n : NetNo) : Option Int :=
  if (s.net n).isOpen then
    match s.entryOf i n with
    | some (_, m) => if m.rights.canListen then m.level else none
    | none => none
  else none

end Sys2Proof.Machine
end

