-- ==== Sys2Proof/Machine/Flags.lean ====
section
/-! DEFINITION. The notice flags: raising and taking a notice, the set of pending kinds and the attention line
(R171 to R174). -/

namespace Sys2Proof.Machine

/-- The place of a notice kind in the fixed priority order, from 0 (R171). -/
def NoticeKind.place : NoticeKind → Fin 9
  | .restarted => 0 | .linkDown => 1 | .audioClock => 2 | .cueNoack => 3 | .callEnded => 4
  | .overload => 5 | .remoteExpired => 6 | .linkUp => 7 | .cueDone => 8

/-- The code of a notice kind (R171). -/
def NoticeKind.code (k : NoticeKind) : Nat := k.place.val + 1

/-- The notice kinds in priority order (R171). -/
def allNoticeKinds : List NoticeKind :=
  [.restarted, .linkDown, .audioClock, .cueNoack, .callEnded, .overload, .remoteExpired, .linkUp, .cueDone]

/-- The pending record of a kind after a raise (R172). -/
def raiseRecord (r : Option PendingNotice) (subject extra : Nat) : PendingNotice :=
  match r with
  | none => { count := 1, first := subject, latest := subject, extra }
  | some p => { p with count := if p.count < 255 then p.count + 1 else 255, latest := subject, extra }

/-- A notice is raised, masked or not (R172). -/
def State.raise (s : State) (k : NoticeKind) (subject : Nat) (extra : Nat := 0) : State :=
  { s with notices := { s.notices with
      records := modifyAt s.notices.records k.place fun r => some (raiseRecord r subject extra) } }

/-- The pending record of a kind. -/
def NoticeUnit.pendingOf (u : NoticeUnit) (k : NoticeKind) : Option PendingNotice := u.records.get k.place

/-- The pending kind of highest priority with its record, masked or not (R173). -/
def NoticeUnit.best (u : NoticeUnit) : Option (NoticeKind × PendingNotice) :=
  allNoticeKinds.findSome? fun k => (u.pendingOf k).map fun p => (k, p)

/-- The set of pending kinds, bit k - 1 for the kind of code k (R174). -/
def NoticeUnit.pendingSet (u : NoticeUnit) : BitVec 9 :=
  allNoticeKinds.foldl
    (fun acc k => if (u.pendingOf k).isSome then acc ||| (1#9 <<< k.place.val) else acc) 0

/-- Whether the attention line is asserted: a pending kind has its mask bit clear (R174), and the part is neither held in
reset nor in start-up (R171). ATTN_N is low while it is. -/
def State.attention (s : State) : Bool :=
  s.phase == .running &&
    allNoticeKinds.any fun k => (s.notices.pendingOf k).isSome && !s.notices.mask.getLsbD k.place.val

/-- The code of a reset kind, the subject of RESTARTED (R171). -/
def ResetKind.code : ResetKind → Nat
  | .power => 1 | .pin => 2 | .command => 3

/-- The subject LOST of AUDIO_CLOCK (R171). -/
def clockLost : Nat := 1

/-- The subject RESTORED of AUDIO_CLOCK (R171). -/
def clockRestored : Nat := 2

end Sys2Proof.Machine
end

