-- ==== Sys2Proof/Machine/Operands.lean ====
section
/-! DEFINITION. The operands of the commands: the frames of the command port with their check byte (R156, R157, R177),
the fields of an argument and of a reply value (R175, R178), the codes of the records (R179), and the transfer area
(R162). -/

namespace Sys2Proof.Machine

/-! ## Bytes -/

/-- Byte `i` of an argument, 0..3, byte 0 first in the frame (R178). -/
def argByte (argument : BitVec 32) (i : Nat) : Byte := argument.extractLsb' (24 - 8 * i) 8

/-- Byte `i` of a frame, 0..7 (R177). -/
def frameByte (frame : BitVec 64) (i : Nat) : Byte := frame.extractLsb' (56 - 8 * i) 8

/-- A reply value of three bytes, byte 0 first (R178). -/
def value3 (b0 b1 b2 : Byte) : BitVec 24 := b0 ++ b1 ++ b2

/-- A number as an unsigned byte. -/
def natByte (n : Nat) : Byte := BitVec.ofNat 8 n

/-- A signed step value as a two's-complement byte (R175). -/
def levelByte (level : Int) : Byte := BitVec.ofInt 8 level

/-- The code of OFF in every format (section 4.3, R175). -/
def offCode : Int := -128

/-- A listen level as a signed step value, OFF as -128 (R39, R175). -/
def listenCode (level : Option Int) : Int := level.getD offCode

/-- A flag as a byte, 1 or 0. -/
def flagByte (b : Bool) : Byte := if b then 1 else 0

/-- A number that is too big for its table is none (BAD_RECORD or BAD_FORMAT, by the request's rule). -/
def numberBelow (n : Nat) (x : Nat) : Option (Fin n) := if h : x < n then some ⟨x, h⟩ else none

/-! ## Check byte (R157) -/

/-- One shift of the CRC-8 register: left by one, with 31h combined in when the bit that leaves is one. -/
def crcShift (register : Byte) : Byte :=
  if register.msb then (register <<< 1) ^^^ 0x31#8 else register <<< 1

/-- One byte combined into the CRC-8 register. -/
def crcByte (register data : Byte) : Byte :=
  crcShift (crcShift (crcShift (crcShift (crcShift (crcShift (crcShift (crcShift (register ^^^ data))))))))

/-- The CRC-8 of bytes, from FFh, with no reflection and no final inversion. -/
def crc8 (bytes : List Byte) : Byte := bytes.foldl crcByte 0xFF#8

/-- The check byte that the first seven bytes of a frame call for. -/
def frameCheck (frame : BitVec 64) : Byte := crc8 ((List.range 7).map (frameByte frame))

/-- Whether a frame passes its check. -/
def frameChecks (frame : BitVec 64) : Bool := frameByte frame 7 == frameCheck frame

/-! ## Request frames (R177) -/

/-- The code of a request kind (R177). -/
def RequestKind.code : RequestKind → Byte
  | .nop => 0x00 | .seek => 0x01 | .put => 0x02 | .get => 0x03 | .restart => 0x0F
  | .stationSet => 0x10 | .stationClear => 0x11 | .stationRead => 0x12 | .keymapSet => 0x13 | .gateSet => 0x14
  | .busConfigure => 0x18 | .busStart => 0x19 | .busStop => 0x1A
  | .netOpen => 0x20 | .netClose => 0x21 | .memberAdd => 0x22 | .memberChange => 0x23 | .memberRemove => 0x24
  | .netRead => 0x25 | .levelOne => 0x28 | .levelFour => 0x29 | .levelFlush => 0x2A
  | .remoteTalk => 0x30 | .remoteRelease => 0x31 | .callPlace => 0x34 | .callEnd => 0x35 | .callRead => 0x36
  | .planRead => 0x38 | .cueDefine => 0x40 | .cueStandby => 0x41 | .cueGo => 0x42 | .cueCancel => 0x43
  | .cueRetire => 0x44 | .cueRead => 0x45 | .cueSummary => 0x46 | .showLock => 0x48 | .showUnlock => 0x49
  | .noticeTake => 0x4C | .noticeMask => 0x4D

/-- Every request kind of the table of R177. -/
def allRequestKinds : List RequestKind :=
  [.nop, .seek, .put, .get, .restart, .stationSet, .stationClear, .stationRead, .keymapSet, .gateSet, .busConfigure,
   .busStart, .busStop, .netOpen, .netClose, .memberAdd, .memberChange, .memberRemove, .netRead, .levelOne, .levelFour,
   .levelFlush, .remoteTalk, .remoteRelease, .callPlace, .callEnd, .callRead, .planRead, .cueDefine, .cueStandby,
   .cueGo, .cueCancel, .cueRetire, .cueRead, .cueSummary, .showLock, .showUnlock, .noticeTake, .noticeMask]

/-- The request kind of a code; a code not in the table names no request (R177). -/
def requestKindOf (code : Byte) : Option RequestKind := allRequestKinds.find? fun k => k.code == code

/-- The kind byte of a frame. -/
def frameKind (frame : BitVec 64) : Byte := frameByte frame 0

/-- The record number of a frame, high byte first. -/
def frameRecord (frame : BitVec 64) : BitVec 16 := frame.extractLsb' 40 16

/-- The argument of a frame. -/
def frameArgument (frame : BitVec 64) : BitVec 32 := frame.extractLsb' 8 32

/-- The request a frame names, if its kind code names one. -/
def frameRequest (frame : BitVec 64) : Option Request :=
  (requestKindOf (frameKind frame)).map fun k => ⟨k, frameRecord frame, frameArgument frame⟩

/-- The first seven bytes of a request's frame. -/
def Request.head (r : Request) : BitVec 56 := r.kind.code ++ r.record ++ r.argument

/-- The frame of a request, with its check byte (R156, R157). -/
def Request.frame (r : Request) : BitVec 64 := r.head ++ frameCheck (r.head ++ 0#8)

/-! ## Reply frames (R158, R177) -/

/-- The code of a status (R177). -/
def Status.code : Status → Byte
  | .done => 0x00 | .noRecord => 0x0F | .badKind => 0x10 | .badRecord => 0x11 | .existing => 0x12 | .duplicate => 0x13
  | .full => 0x14 | .busy => 0x15 | .locked => 0x16 | .fixed => 0x17 | .referenced => 0x18 | .notStanding => 0x19
  | .already => 0x1A | .active => 0x1B | .tooLate => 0x1C | .queueFull => 0x1D | .misaligned => 0x1E
  | .badFormat => 0x1F | .notAllowed => 0x20

/-- The first seven bytes of the frame that a content of the reply slot sends (R158). -/
def Reply.head : Reply → BitVec 56
  | .none => 0x01#8 ++ 0#48
  | .inProgress k r => 0x02#8 ++ k ++ r ++ 0#24
  | .completed st k r v => st.code ++ k ++ r ++ v
  | .checkFailed k r => 0x03#8 ++ k ++ r ++ 0#24
  | .starting => 0x04#8 ++ 0#48

/-- The reply frame shifted out for a content of the reply slot, with its check byte (R157, R158). -/
def Reply.frame (c : Reply) : BitVec 64 := c.head ++ frameCheck (c.head ++ 0#8)

/-- The bit that CP_DOUT carries when `edges` rising edges of CP_CLK have come in the transaction, none when it is not
driven. Up to the 64th edge it is the next bit of the reply latched at the fall of select, the first bit most significant;
past it, ones (R156, R158). After a stall it is a one (R160). With select released, and while RESET_N is low, CP_DOUT is
not driven (R156, R169). That it is not driven either while select stays low after a reset, with RESET_N high, until select
has risen, is the model's choice: no rule says what it carries then (DESIGN CHOICE, log entry 29). -/
def State.cpDout (s : State) (edges : Nat) : Option Bool :=
  if s.phase = .held then none
  else
    match s.port.transaction with
    | .receiving | .completed => some (if edges < 64 then s.port.latched.frame.getMsbD edges else true)
    | .stalled => some true
    | .released | .awaitingRelease => none

/-! ## Codes of record fields (R178, R179) -/

/-- The code of a kind (R178). -/
def Kind.code : Kind → Byte
  | .panel => 1 | .beltpack => 2 | .cuebox => 3

/-- The kind of a code. -/
def kindOf (code : Byte) : Option Kind := [Kind.panel, .beltpack, .cuebox].find? fun k => k.code == code

/-- The code of a class (R178). -/
def PriorityClass.code : PriorityClass → Byte
  | .crew => 0 | .operator => 1 | .booth => 2 | .stageManager => 3

/-- The class of a code. -/
def classOf (code : Byte) : Option PriorityClass :=
  [PriorityClass.crew, .operator, .booth, .stageManager].find? fun c => c.code == code

/-- The code of a parity mode (R18). -/
def Parity.code : Parity → Byte
  | .none => 0 | .odd => 1 | .even => 2 | .zero => 3

/-- The parity mode of a code. -/
def parityOf (code : Byte) : Option Parity := [Parity.none, .odd, .even, .zero].find? fun p => p.code == code

/-- The code of rights (R39). -/
def Rights.code : Rights → Byte
  | .talk => 1 | .listen => 2 | .both => 3

/-- The rights of a code. -/
def rightsOf (code : Byte) : Option Rights := [Rights.talk, .listen, .both].find? fun r => r.code == code

/-- The code of a link state (R179). -/
def LinkState.code : LinkState → Byte
  | .unpolled => 0 | .probing => 1 | .up => 2 | .down => 3

/-- The code of a talk mode (R179). -/
def TalkMode.code : TalkMode → Byte
  | .momentary => 0 | .latching => 1 | .auto => 2

/-- The talk mode of a code. -/
def talkModeOf (code : Byte) : Option TalkMode :=
  [TalkMode.momentary, .latching, .auto].find? fun m => m.code == code

/-- A key binding entry: kind, parameter and mode (R179). -/
structure BindingBytes where
  kind : Byte
  param : Byte
  mode : Byte
deriving DecidableEq, Repr

/-- The key binding entry of a binding; the bytes it does not use are stored as 0 (R12). -/
def Binding.bytes : Binding → BindingBytes
  | .none => ⟨0, 0, 0⟩
  | .talk n m => ⟨1, natByte n.val, m.code⟩
  | .call x => ⟨2, natByte x.val, 0⟩
  | .answer => ⟨3, 0, 0⟩
  | .allCall => ⟨4, 0, 0⟩
  | .standby c => ⟨5, natByte c.val, 0⟩
  | .go c => ⟨6, natByte c.val, 0⟩
  | .ack => ⟨7, 0, 0⟩

/-- The binding of a key binding entry: none where the kind is unknown, the parameter out of range or the TALK mode
unknown (R12, BAD_FORMAT). Bytes that the kind does not use are ignored. -/
def bindingOf (b : BindingBytes) : Option Binding :=
  match b.kind.toNat with
  | 0 => some .none
  | 1 => do
      let n ← numberBelow 32 b.param.toNat
      let m ← talkModeOf b.mode
      some (.talk n m)
  | 2 => (numberBelow 96 b.param.toNat).map .call
  | 3 => some .answer
  | 4 => some .allCall
  | 5 => (numberBelow 64 b.param.toNat).map .standby
  | 6 => (numberBelow 64 b.param.toNat).map .go
  | 7 => some .ack
  | _ => none

/-- The policy and flags byte of a cue (R176). -/
def policyByte (policy : Policy) (direct repeatable locked : Bool) : Byte :=
  (if policy = .any then 1 else 0) ||| (if direct then 2 else 0) ||| (if repeatable then 4 else 0)
    ||| (if locked then 8 else 0)

/-- The code of a cue's state (R179); VACANT is 0. -/
def CueState.code : CueState → Byte
  | .staged => 1 | .standby => 2 | .ready => 3 | .go => 4

/-- The code of a per-target status (R179); absent is 0. -/
def statusByte : Option EntryStatus → Byte
  | none => 0
  | some .pending => 1
  | some .acked => 2
  | some .lost => 3

/-- An absent station, occupant or next reads FFh (R175). -/
def stationByte : Option StationNo → Byte
  | some i => natByte i.val
  | none => 0xFF

/-! ## The transfer area (R162) -/

/-- Byte `i` of the transfer area; a position at 48 or above reads 0. -/
def Port.areaByte (p : Port) (i : Nat) : Byte := if h : i < 48 then p.area.get ⟨i, h⟩ else 0

/-- The area with byte `i` written; a byte at position 48 or above is dropped. -/
def Port.writeByte (p : Port) (i : Nat) (b : Byte) : Port :=
  if h : i < 48 then { p with area := modifyAt p.area ⟨i, h⟩ fun _ => b } else p

/-- The area loaded with a record from byte 0: every byte past the record is 0, and the cursor is 0. -/
def State.loadArea (s : State) (record : List Byte) : State :=
  { s with port := { s.port with area := Vector.ofFn fun i => record.getD i.val 0, cursor := 0 } }

/-- A two-byte number of the area, high byte first. -/
def Port.areaWord (p : Port) (i : Nat) : Nat := (p.areaByte i).toNat * 256 + (p.areaByte (i + 1)).toNat

end Sys2Proof.Machine
end

