-- ==== Sys2Proof/Machine/Levels.lean ====
section
/-! DEFINITION. The arithmetic of levels (R111, R112, R116, R117, R121) and the clamping of level writes (R41, R164). -/

namespace Sys2Proof.Machine

/-- The table of R112: entry r is 32768 * 2^(-r/12), rounded. -/
def levelTable : List Nat :=
  [32768, 30929, 29193, 27554, 26008, 24548, 23170, 21870, 20643, 19484, 18390, 17358]

/-- The coefficient of a level: saturation above +24, mute below -144, and the conversion between (R111, R112). -/
def coefficientOf (level : Int) : Nat :=
  if level < -144 then 0
  else
    let d := (24 - min level 24).toNat
    levelTable.getD (d % 12) 0 / 2 ^ (d / 12)

/-- The sample magnitude of a gate threshold (R121). -/
def thresholdOf (level : Int) : Nat :=
  let d := (-level).toNat
  levelTable.getD (d % 12) 0 * 256 / 2 ^ (d / 12)

/-- The term of a slot: the floor of x * C / 8192 (R116). -/
def termOf (x : Int) (coefficient : Nat) : Int := Int.fdiv (x * coefficient) 8192

/-- A sum brought into the sample range (R117). -/
def clampSample (sum : Int) : Int := clamp (-8388608) 8388607 sum

/-- The magnitude of a sample for the block peak, -8388608 counted as 8388607 (R120). -/
def sampleMagnitude (x : Int) : Nat := min x.natAbs 8388607

/-- One step of the ramp: 256 toward the target, or to it if that is nearer (R113). -/
def rampStep (current target : Nat) : Nat :=
  if current < target then min (current + 256) target else max (current - 256) target

/-- The five levels that a level address may name (R163). -/
inductive LevelField where
  | listen | trim | master | dim | duck
deriving DecidableEq, Repr

/-- A listen level as taken: -128 is OFF, other values are brought into -48..+12 (R41). -/
def listenLevelOf (value : Int) : Option Int := if value = offCode then none else some (clamp (-48) 12 value)

/-- A written value as taken for its field, OFF as -128 (R164). -/
def LevelField.take (f : LevelField) (value : Int) : Int :=
  match f with
  | .listen => listenCode (listenLevelOf value)
  | .trim => clamp (-24) 24 value
  | .master => clamp (-48) 0 value
  | .dim => clamp 0 24 value
  | .duck => clamp 0 48 value

/-- What a level address names: a member entry's listen level or one field of a station (R163). -/
inductive LevelAddress where
  | listen (entry : EntryNo)
  | station (field : LevelField) (station : StationNo)
deriving DecidableEq, Repr

/-- The field of a level address. -/
def LevelAddress.field : LevelAddress → LevelField
  | .listen _ => .listen
  | .station f _ => f

/-- The level named by an address, none above 767 (R163). -/
def levelAddressOf (a : Nat) : Option LevelAddress :=
  if h : a < 384 then some (.listen ⟨a, h⟩)
  else if h : a - 384 < 96 then some (.station .trim ⟨a - 384, h⟩)
  else if h : a - 480 < 96 then some (.station .master ⟨a - 480, h⟩)
  else if h : a - 576 < 96 then some (.station .dim ⟨a - 576, h⟩)
  else if h : a - 672 < 96 then some (.station .duck ⟨a - 672, h⟩)
  else none

/-- Whether the record of a level address is present (R164). -/
def State.levelPresent (s : State) : LevelAddress → Bool
  | .listen e => (s.member e).isSome
  | .station _ i => (s.station i).configured

/-- A station record with one of its levels written (R9). -/
def Station.setLevel (r : Station) (f : LevelField) (value : Int) : Station :=
  match f with
  | .listen => r
  | .trim => { r with trim := value }
  | .master => { r with master := value }
  | .dim => { r with dim := value }
  | .duck => { r with duck := value }

end Sys2Proof.Machine
end

