-- ==== Sys2Proof/Machine/Planner.lean ====
section
/-! DEFINITION. The Listen Planner: paths and candidates, rank, and the rules that keep the slots (R89 to R107). -/

namespace Sys2Proof.Machine

/-! ## Paths and candidates (R90 to R92) -/

/-- The duck condition of a listener: an all-call is active and it is not the owner (R73). -/
def State.ducked (s : State) (i : StationNo) : Bool :=
  match s.talk.allCall with
  | some a => a.owner != i
  | none => false

/-- The duck term of a listener (R90). -/
def State.duckTerm (s : State) (i : StationNo) : Int := if s.ducked i then (s.station i).duck else 0

/-- The dim term of a listener in a net: its dim depth while it is a talker there (R73, R90). -/
def State.dimTerm (s : State) (i : StationNo) (n : NetNo) : Int :=
  if (s.talkersOf n).contains i then (s.station i).dim else 0

/-- The arrival number of a talker in a net (R57). -/
def State.talkArrival (s : State) (t : StationNo) (n : NetNo) : Nat :=
  match s.talk.intents.find? fun i => i.station = t && i.net = n with
  | some i => i.arrival.getD 0
  | none => 0

/-- The nets that a listener hears, with its listen level in each (R90). -/
def State.netsHeard (s : State) (i : StationNo) : List (NetNo × Int) :=
  (allOf 32).filterMap fun n => (s.listenLevel i n).map fun l => (n, l)

/-- The station with which `i` is in a CONNECTED call, and the call's arrival number (R91). -/
def State.callPartner (s : State) (i : StationNo) : Option (StationNo × Nat) :=
  (allOf 24).findSome? fun c =>
    match s.call c with
    | some ⟨caller, callee, _, .connected a⟩ =>
        if caller = i then some (callee, a) else if callee = i then some (caller, a) else none
    | _ => none

/-- The net paths of listener `i` from source `t` through the nets that `i` hears (R90). -/
def State.netPaths (s : State) (heard : List (NetNo × Int)) (i t : StationNo) : List Path :=
  heard.filterMap fun (n, l) =>
    if (s.talkersOf n).contains t then
      some ⟨.net n, (s.station t).trim + l + (s.station i).master - s.dimTerm i n - s.duckTerm i, s.talkArrival t n⟩
    else none

/-- The call path of listener `i` from source `t`, if any (R91). -/
def State.callPath (s : State) (partner : Option (StationNo × Nat)) (i t : StationNo) : List Path :=
  match partner with
  | some (p, a) => if p = t then [⟨.call, (s.station t).trim + (s.station i).master - s.duckTerm i, a⟩] else []
  | none => []

/-- The all-call path of listener `i` from source `t`, if any (R91). -/
def State.allCallPath (s : State) (i t : StationNo) : List Path :=
  match s.talk.allCall with
  | some a => if a.owner = t then [⟨.allCall, (s.station t).trim + (s.station i).master, a.arrival⟩] else []
  | none => []

/-- The candidates of a listener in use, in ascending station number: every other station from which a path comes. -/
def State.candidatesOf (s : State) (i : StationNo) : List Candidate :=
  let heard := s.netsHeard i
  let partner := s.callPartner i
  (allOf 96).filterMap fun t =>
    if t = i then none
    else
      match s.netPaths heard i t ++ s.callPath partner i t ++ s.allCallPath i t with
      | [] => none
      | paths => some ⟨t, paths⟩

/-- The level of a candidate: the greatest of its path levels (R92). -/
def Candidate.level (c : Candidate) : Int :=
  match c.paths with
  | [] => 0
  | p :: ps => ps.foldl (fun acc q => max acc q.level) p.level

/-- The arrival of a candidate: the smallest of its path arrival numbers (R92). -/
def Candidate.arrival (c : Candidate) : Nat :=
  match c.paths with
  | [] => 0
  | p :: ps => ps.foldl (fun acc q => min acc q.arrival) p.arrival

/-- The all-call flag of a candidate (R92). -/
def Candidate.allCall (c : Candidate) : Bool := c.paths.any fun p => p.kind == .allCall

/-- Whether a candidate has a path of a kind. -/
def Candidate.hasPath (c : Candidate) (k : PathKind) : Bool := c.paths.any fun p => p.kind == k

/-! ## Rank (R94) -/

/-- The standing of a class, the highest greatest (R1). -/
def PriorityClass.standing : PriorityClass → Nat
  | .crew => 0 | .operator => 1 | .booth => 2 | .stageManager => 3

/-- The standing of a candidate's class, read from the Station Table (R92). -/
def State.standing (s : State) (c : Candidate) : Nat := (s.station c.station).cls.standing

/-- Whether `a` strictly outranks `b`: on the all-call flag, or on the class with the flag equal (R94). -/
def State.outranks (s : State) (a b : Candidate) : Bool :=
  if a.allCall != b.allCall then a.allCall else s.standing b < s.standing a

/-- Whether `a` ranks before `b`: all-call flag, class, arrival, station number (R94). -/
def State.ranksBefore (s : State) (a b : Candidate) : Bool :=
  if a.allCall != b.allCall then a.allCall
  else if s.standing a != s.standing b then s.standing b < s.standing a
  else if a.arrival != b.arrival then a.arrival < b.arrival
  else a.station < b.station

/-- The candidate record of a station in a plan. -/
def Plan.candidate (p : Plan) (t : StationNo) : Option Candidate := p.candidates.find? fun c => c.station = t

/-- The level of a station's candidate in a plan. -/
def Plan.levelOf (p : Plan) (t : StationNo) : Int :=
  match p.candidate t with
  | some c => c.level
  | none => 0

/-- Whether station `a` ranks before station `b` by their candidate records in a plan. -/
def Plan.ranksBefore (s : State) (p : Plan) (a b : StationNo) : Bool :=
  match p.candidate a, p.candidate b with
  | some c, some d => s.ranksBefore c d
  | some _, none => true
  | none, _ => false

/-! ## Slots -/

/-- The occupant of a slot (R89). -/
def SlotUse.occupant : SlotUse → Option StationNo
  | .free => none
  | .active t => some t
  | .draining t _ => some t

/-- The holder of a slot: the occupant of an ACTIVE one, the next of a DRAINING one (R89). -/
def SlotUse.holder : SlotUse → Option StationNo
  | .free => none
  | .active t => some t
  | .draining _ next => next

/-- The holders of a plan, by slot number (R89). -/
def Plan.holders (p : Plan) : List StationNo := (allOf 8).filterMap fun k => (p.slots.get k).use.holder

/-- The lowest-numbered slot whose use satisfies a condition. -/
def Plan.lowestSlot (p : Plan) (test : SlotUse → Bool) : Option SlotNo :=
  (allOf 8).find? fun k => test (p.slots.get k).use

/-- The plan with slot `k` changed. -/
def Plan.modSlot (p : Plan) (k : SlotNo) (f : Slot → Slot) : Plan := { p with slots := modifyAt p.slots k f }

/-- Slot `k` becomes ACTIVE with occupant `t`: its target is computed from the candidate's level (R107), its current
coefficient carries through (R115) and its reported mark is cleared (R114). -/
def Plan.activate (p : Plan) (k : SlotNo) (t : StationNo) : Plan :=
  p.modSlot k fun x => { x with use := .active t, target := coefficientOf (p.levelOf t), reported := false }

/-- Slot `k` becomes DRAINING with target 0, keeping occupant `t` (R97, R99, R107). -/
def Plan.drain (p : Plan) (k : SlotNo) (t : StationNo) (next : Option StationNo) : Plan :=
  p.modSlot k fun x => { x with use := .draining t next, target := 0 }

/-- The next of DRAINING slot `k` is set or cleared. -/
def Plan.setNext (p : Plan) (k : SlotNo) (next : Option StationNo) : Plan :=
  p.modSlot k fun x =>
    match x.use with
    | .draining t _ => { x with use := .draining t next }
    | _ => x

/-- A candidate joins the waiting list at its rank (R97). -/
def Plan.wait (s : State) (p : Plan) (t : StationNo) : Plan :=
  { p with waiting := insertBy (p.ranksBefore s) t p.waiting }

/-- A station leaves the waiting list. -/
def Plan.unwait (p : Plan) (t : StationNo) : Plan := { p with waiting := p.waiting.filter (· != t) }

/-- The waiting list put in rank order (R94, R95). -/
def Plan.rerank (s : State) (p : Plan) : Plan := { p with waiting := sortBy (p.ranksBefore s) p.waiting }

/-- Every ACTIVE target computed anew from its occupant's level (R96, R107). -/
def Plan.retarget (p : Plan) : Plan :=
  { p with slots := mapTable p.slots fun _ x =>
      match x.use with
      | .active t => { x with target := coefficientOf (p.levelOf t) }
      | _ => x }

/-- The best waiting candidate bound to slot `k`, which has no next: it reclaims the slot if it is its occupant, and
becomes its next otherwise; with nobody waiting the slot stays without a next (R98). -/
def Plan.bindBest (p : Plan) (k : SlotNo) : Plan :=
  match p.waiting with
  | [] => p
  | w :: rest =>
      let p := { p with waiting := rest }
      if (p.slots.get k).use.occupant = some w then p.activate k w else p.setNext k (some w)

/-- The lowest-ranked holder of a plan with its slot: the one that ranks after every other holder (R94). -/
def Plan.lowestHolder (s : State) (p : Plan) : Option (SlotNo × StationNo) :=
  ((allOf 8).filterMap fun k => (p.slots.get k).use.holder.map fun t => (k, t)).foldl
    (fun low kt =>
      match low with
      | none => some kt
      | some l => if p.ranksBefore s l.2 kt.2 then some kt else some l)
    none

/-! ## Arrivals and departures (R97 to R101) -/

/-- A new candidate enters a plan: the first of the four cases that applies (R97). -/
def Plan.newCandidate (s : State) (p : Plan) (t : StationNo) : Plan :=
  match p.lowestSlot (· == .free) with
  | some k => p.activate k t
  | none =>
    match p.lowestSlot fun u => match u with | .draining _ none => true | _ => false with
    | some k => p.setNext k (some t)
    | none =>
      match p.lowestHolder s, p.candidate t with
      | some (k, h), some c =>
        match p.candidate h with
        | some ch =>
          if s.outranks c ch then
            match (p.slots.get k).use with
            | .active _ => (p.drain k h (some t)).wait s h
            | _ => (p.setNext k (some t)).wait s h
          else p.wait s t
        | none => p.wait s t
      | _, _ => p.wait s t

/-- A station that was no candidate becomes one: it takes back the lowest-numbered DRAINING slot that it occupies and
that has no next (R101), or is taken as a new candidate (R97). -/
def Plan.arrive (s : State) (p : Plan) (t : StationNo) : Plan :=
  match p.lowestSlot (· == .draining t none) with
  | some k => p.activate k t
  | none => p.newCandidate s t

/-- A station ceases to be a candidate: an ACTIVE occupant's slot drains (R99), a bound next is unbound, a waiting
candidate leaves the waiting list (R100); a slot left without a next takes the best waiting candidate (R98). -/
def Plan.depart (p : Plan) (t : StationNo) : Plan :=
  match p.lowestSlot (· == .active t) with
  | some k => (p.drain k t none).bindBest k
  | none =>
    match p.lowestSlot fun u => match u with | .draining _ (some x) => x == t | _ => false with
    | some k => (p.setNext k none).bindBest k
    | none => p.unwait t

/-! ## One change taken by a plan (R93, R95, R96, R103, R104) -/

/-- The plan with the record of a candidate replaced. -/
def Plan.setCandidate (p : Plan) (c : Candidate) : Plan :=
  { p with candidates := p.candidates.map fun d => if d.station = c.station then c else d }

/-- The plan with a candidate record added, in ascending station number. -/
def Plan.addCandidate (p : Plan) (c : Candidate) : Plan :=
  { p with candidates := insertBy (fun a b => a.station < b.station) c p.candidates }

/-- The plan with a candidate record removed. -/
def Plan.dropCandidate (p : Plan) (t : StationNo) : Plan :=
  { p with candidates := p.candidates.filter fun d => d.station != t }

/-- The levels of a record's paths taken from the present paths; the paths and arrivals stay. -/
def Candidate.withLevels (c : Candidate) (present : List Candidate) : Candidate :=
  match present.find? fun d => d.station = c.station with
  | none => c
  | some d => { c with paths := c.paths.map fun p =>
      match d.paths.find? fun q => q.kind = p.kind with
      | some q => { p with level := q.level }
      | none => p }

/-- First of R104: every candidate's levels are computed anew, and the ACTIVE targets with them (R96). -/
def Plan.takeLevels (p : Plan) (present : List Candidate) : Plan :=
  ({ p with candidates := p.candidates.map fun c : Candidate => c.withLevels present }).retarget

/-- Second of R104, for one candidate `c` that loses paths: it ceases when none remains (R99, R100), and otherwise its
level, arrival and flag are those of the paths that remain (R92, R103). -/
def Plan.losePaths (s : State) (present : List Candidate) (p : Plan) (c : Candidate) : Plan :=
  let left := match present.find? fun d => d.station = c.station with
    | some d => c.paths.filter fun q => d.hasPath q.kind
    | none => []
  if left.length = c.paths.length then p
  else if left.isEmpty then (p.dropCandidate c.station).depart c.station
  else ((p.setCandidate { c with paths := left }).rerank s).retarget

/-- Third of R104, for one present candidate `c` that arrives or gains a path. A waiting candidate whose all-call flag
becomes set is taken as a new candidate; any other moves in the waiting list to its rank, and a holder stays (R103). -/
def Plan.gainPaths (s : State) (p : Plan) (c : Candidate) : Plan :=
  match p.candidate c.station with
  | none => (p.addCandidate c).arrive s c.station
  | some old =>
    let q := (p.setCandidate c).retarget
    if p.waiting.contains c.station && c.allCall && !old.allCall then
      (q.unwait c.station).newCandidate s c.station
    else q.rerank s

/-- Whether present candidate `c` arrives in a plan or gains a path there. -/
def Plan.gains (p : Plan) (c : Candidate) : Bool :=
  match p.candidate c.station with
  | none => true
  | some old => c.paths.any fun q => !old.hasPath q.kind

/-- One change taken by the plan of listener `i`, from its candidate records to the paths that now exist: waiting places
by the present classes (R95), then levels, then candidates that lose paths in ascending station number, then candidates
that arrive or gain a path in the order given (R104). -/
def Plan.reviseBy (before : Candidate → Candidate → Bool) (s : State) (i : StationNo) (p : Plan) : Plan :=
  let present := s.candidatesOf i
  let p := (p.rerank s).takeLevels present
  let p := p.candidates.foldl (fun q c => q.losePaths s present c) p
  (sortBy before (present.filter p.gains)).foldl (fun q c => q.gainPaths s c) p

/-- The order in which the candidates that one change brings to a plan are taken. Only a net path that is formed brings
more than one: its talkers come in rank order by R104 and in ascending station number by R93, and which of the two is a
free value (log entry 10). -/
def State.formedBefore (s : State) (a b : Candidate) : Bool :=
  if Config.formedByRank then s.ranksBefore a b else a.station < b.station

/-- One change taken by the plan of listener `i` (R93, R104). -/
def Plan.revise (s : State) (i : StationNo) (p : Plan) : Plan := Plan.reviseBy s.formedBefore s i p

/-- The plan of listener `i` as it comes into use at its UP entry: the candidates it has at that moment, taken in rank
order, best first, into an empty plan (R105). -/
def Plan.opening (s : State) (i : StationNo) : Plan := Plan.reviseBy s.ranksBefore s i {}

/-- A change is handed to the Planner: every plan in use takes it, and a plan not in use ignores it (R93). -/
def State.replan (s : State) : State :=
  { s with plans := mapTable s.plans fun i p => if s.planInUse i then p.revise s i else p }

/-- UP entry of station `i` in the Planner: the plan of a listener comes into use (R105). It adds nothing to other
plans. -/
def State.beginPlan (s : State) (i : StationNo) : State :=
  if s.planInUse i then s.modPlan i fun _ => Plan.opening s i else s

/-- The plan of a station that leaves UP is emptied at once: slots FREE with target and current coefficient 0 and the
reported marks clear, no waiting candidates, and the listener's next output sample silence (R106, R115). -/
def State.emptyPlan (s : State) (i : StationNo) : State :=
  (s.modPlan i fun _ => {}).modChannel i fun c => { c with computed := 0 }

/-- Drain completion taken for slot `k` of a plan: the next becomes the ACTIVE occupant, or the slot becomes FREE
(R102, R114). -/
def Plan.completeDrain (p : Plan) (k : SlotNo) : Plan :=
  match (p.slots.get k).use with
  | .draining _ (some next) => p.activate k next
  | .draining _ none => p.modSlot k fun x => { x with use := .free, target := 0, reported := false }
  | _ => p

end Sys2Proof.Machine
end

