-- ==== Sys2Proof/Machine/Talk.lean ====
section
/-! DEFINITION. The Talk Unit: intents, talkers and arrival numbers, the key modes, the voice gate and the all-call
(R54 to R64, R68 to R75). -/

namespace Sys2Proof.Machine

/-! ## Intents and talkers (R54 to R57) -/

/-- The intent of station `i` in net `n` (R54). -/
def State.intent (s : State) (i : StationNo) (n : NetNo) : Option Intent :=
  s.talk.intents.find? fun x => x.station = i && x.net = n

/-- Whether the pool has a free intent (R54). -/
def State.intentFree (s : State) : Bool := s.talk.intents.length < Config.intentPool

/-- The order in which the intents in use stand: by station, then net. -/
def Intent.before (x y : Intent) : Bool := x.station < y.station || (x.station == y.station && x.net < y.net)

/-- The intents in use without that of a pair. -/
def State.withoutIntent (s : State) (i : StationNo) (n : NetNo) : List Intent :=
  s.talk.intents.filter fun x => !(x.station == i && x.net == n)

/-- The intent of a pair put in use or replaced (R54). -/
def State.putIntent (s : State) (x : Intent) : State :=
  { s with talk := { s.talk with intents := insertBy Intent.before x (s.withoutIntent x.station x.net) } }

/-- The intent of a pair freed (R54). -/
def State.freeIntent (s : State) (i : StationNo) (n : NetNo) : State :=
  { s with talk := { s.talk with intents := s.withoutIntent i n } }

/-- The nets in which a station has an intent, ascending. -/
def State.intentNets (s : State) (i : StationNo) : List NetNo :=
  (s.talk.intents.filter fun x => x.station == i).map Intent.net

/-- The greatest arrival number, 2^32 - 1 (R56). -/
def lastArrival : Nat := 4294967295

/-- The state after an arrival number has been issued; the number is the counter's value before (R56). -/
def State.issueArrival (s : State) : State :=
  { s with talk := { s.talk with arrivals := if s.talk.arrivals < lastArrival then s.talk.arrivals + 1 else lastArrival } }

/-- The place of a talker in its net's list: by arrival number, then station number (R57). -/
def State.talksBefore (s : State) (n : NetNo) (a b : StationNo) : Bool :=
  let x := s.talkArrival a n
  let y := s.talkArrival b n
  x < y || (x == y && a < b)

/-- Station `i` becomes a talker in net `n`: an arrival number, its place in the talker list, the talker join (R57). -/
def State.joinTalkers (s : State) (i : StationNo) (n : NetNo) : State :=
  match s.intent i n with
  | none => s
  | some x =>
    let s := (s.putIntent { x with arrival := some s.talk.arrivals }).issueArrival
    (s.modTalkers n fun l => insertBy (s.talksBefore n) i l).replan

/-- Station `i` stops being a talker in net `n`: out of the list, its number discarded, the talker leave (R57). -/
def State.leaveTalkers (s : State) (i : StationNo) (n : NetNo) : State :=
  let s := s.modTalkers n fun l => l.filter (· != i)
  match s.intent i n with
  | none => s.replan
  | some x => (s.putIntent { x with arrival := none }).replan

/-- The talker rule for an intent of station `i` in net `n` (R55). -/
def State.qualifies (s : State) (i : StationNo) (n : NetNo) : Bool :=
  s.isUp i && s.mayTalk i n && (s.net n).isOpen && (!(s.station i).gateEnable || (s.gate i).isOpen)

/-- The talker rule evaluated for the intent of a pair (R55). -/
def State.evaluateTalk (s : State) (i : StationNo) (n : NetNo) : State :=
  match s.intent i n with
  | none => s
  | some x =>
    if s.qualifies i n && !x.arrival.isSome then s.joinTalkers i n
    else if !s.qualifies i n && x.arrival.isSome then s.leaveTalkers i n
    else s

/-- The talker rule evaluated for every intent of a station, in ascending net number (R11, R69). -/
def State.evaluateAll (s : State) (i : StationNo) : State :=
  (s.intentNets i).foldl (fun s n => s.evaluateTalk i n) s

/-- The intent of a pair dropped as a whole, without notice: if a talker, the station leaves the list first
(R54, R74, R75). -/
def State.dropIntent (s : State) (i : StationNo) (n : NetNo) : State :=
  match s.intent i n with
  | none => s
  | some x => (if x.arrival.isSome then s.leaveTalkers i n else s).freeIntent i n

/-- The intent of a pair with its origins replaced: freed when none is left (R54), and else kept with its talker flag
and arrival number. -/
def State.setOrigins (s : State) (x : Intent) (key : Option KeyOrigin) (remote : Option Time) : State :=
  if key.isNone && remote.isNone then s.dropIntent x.station x.net
  else s.putIntent { x with key, remote }

/-- An origin added to the intent of a pair, which is put in use if there is none; then the talker rule (R54, R55). -/
def State.addOrigin (s : State) (i : StationNo) (n : NetNo) (f : Intent → Intent) : State :=
  let x := (s.intent i n).getD { station := i, net := n }
  (s.putIntent (f x)).evaluateTalk i n

/-! ## TALK keys (R58 to R63) -/

/-- The KEY origin that key `k` gave to the intent of a pair. -/
def State.keyOrigin (s : State) (i : StationNo) (n : NetNo) (k : KeyNo) : Option KeyOrigin :=
  match s.intent i n with
  | some x => x.key.filter fun o => o.key = k
  | none => none

/-- The KEY origin of the intent of a pair removed: the intent stays with a REMOTE origin and is freed otherwise
(R59, R60, R61). -/
def State.removeKeyOrigin (s : State) (i : StationNo) (n : NetNo) : State :=
  match s.intent i n with
  | some x => s.setOrigins x none x.remote
  | none => s

/-- What a press does to the unit that takes it: the state after it, and whether it was taken. -/
structure Press where
  state : State
  taken : Bool

/-- A press that would add a KEY origin, under the checks of R58. -/
def State.addKeyOrigin (s : State) (i : StationNo) (n : NetNo) (o : KeyOrigin) : Press :=
  if !(s.net n).isOpen || !s.mayTalk i n then ⟨s, false⟩
  else if (s.intent i n).isNone && !s.intentFree then ⟨s, false⟩
  else ⟨s.addOrigin i n fun x => { x with key := some o }, true⟩

/-- A press of key `k` of station `i`, bound TALK to net `n` (R58 to R61). -/
def State.talkPress (s : State) (i : StationNo) (k : KeyNo) (n : NetNo) (mode : TalkMode) (at_ : Time) : Press :=
  match mode, s.keyOrigin i n k with
  | .momentary, some _ => ⟨s, true⟩
  | .momentary, none => s.addKeyOrigin i n ⟨k, .momentary, .held at_⟩
  | .latching, some _ => ⟨s.removeKeyOrigin i n, true⟩
  | .latching, none => s.addKeyOrigin i n ⟨k, .latching, .latched⟩
  | .auto, none => s.addKeyOrigin i n ⟨k, .auto, .held at_⟩
  | .auto, some ⟨_, _, .latched⟩ => ⟨(s.removeKeyOrigin i n).setIgnoreRelease i k true, true⟩
  | .auto, some ⟨_, _, .held _⟩ => ⟨s, true⟩

/-- The KEY origin of the intent of a pair passes to phase LATCHED (R62). -/
def State.latchOrigin (s : State) (i : StationNo) (n : NetNo) : State :=
  match s.intent i n with
  | some x => s.putIntent { x with key := x.key.map fun o => { o with phase := .latched } }
  | none => s

/-- A release of key `k` of station `i`, bound TALK to net `n` (R59, R60, R62). -/
def State.talkRelease (s : State) (i : StationNo) (k : KeyNo) (n : NetNo) (mode : TalkMode) (at_ : Time) : State :=
  match mode with
  | .momentary => if (s.keyOrigin i n k).isSome then s.removeKeyOrigin i n else s
  | .latching => s
  | .auto =>
    if s.ignoresRelease i k then s.setIgnoreRelease i k false
    else
      match s.keyOrigin i n k with
      | some ⟨_, _, .held press⟩ => if at_ - press < autoTime then s.latchOrigin i n else s.removeKeyOrigin i n
      | _ => s

/-- The end of the TALK binding of key `k` of station `i` to net `n` (R63). -/
def State.endTalkBinding (s : State) (i : StationNo) (k : KeyNo) (n : NetNo) : State :=
  (if (s.keyOrigin i n k).isSome then s.removeKeyOrigin i n else s).setIgnoreRelease i k false

/-! ## The all-call (R70 to R72) -/

/-- A press of key `k` of station `i`, bound ALLCALL (R70). -/
def State.allCallPress (s : State) (i : StationNo) (k : KeyNo) : Press :=
  match s.talk.allCall with
  | some _ => ⟨s, false⟩
  | none =>
    let s := { s with talk := { s.talk with allCall := some ⟨i, k, s.talk.arrivals⟩ } }
    ⟨s.issueArrival.replan, true⟩

/-- The all-call ends and its end is handed to the Planner (R71). -/
def State.endAllCall (s : State) : State := State.replan { s with talk := { s.talk with allCall := none } }

/-- The release, or the end of the binding, of key `k` of station `i`: the all-call ends if that is its owner's owning
key (R71, R14). -/
def State.allCallRelease (s : State) (i : StationNo) (k : KeyNo) : State :=
  match s.talk.allCall with
  | some a => if a.owner = i ∧ a.key = k then s.endAllCall else s
  | none => s

/-- UP exit of station `i` in the Talk Unit: every intent dropped in ascending net number, and the all-call it owns
ended (R74). -/
def State.talkExit (s : State) (i : StationNo) : State :=
  let s := (s.intentNets i).foldl (fun s n => s.dropIntent i n) s
  match s.talk.allCall with
  | some a => if a.owner = i then s.endAllCall else s
  | none => s

/-- Whether station `i` is a receiver of an active all-call: UP, with audio, not the owner (R72). -/
def State.receivesAllCall (s : State) (i : StationNo) : Bool :=
  match s.talk.allCall with
  | some a => s.planInUse i && a.owner != i
  | none => false

/-! ## The voice gate (R11, R68, R69) -/

/-- The movement of the gate of station `i` by a block peak (R68). -/
def State.movedGate (s : State) (i : StationNo) (peak : Nat) : Gate :=
  let r := s.station i
  let g := s.gate i
  if g.isOpen then
    if thresholdOf r.gateClose ≤ peak then { g with hold := r.gateHold }
    else if g.hold - 1 = 0 then { isOpen := false, hold := 0 }
    else { g with hold := g.hold - 1 }
  else if thresholdOf r.gateOpen ≤ peak then { isOpen := true, hold := r.gateHold }
  else g

/-- The gate of station `i` moved by a block peak; a gate whose enable is off is not moved, and a change of state has
the talker rule evaluated for every intent of the station (R68, R69). -/
def State.moveGate (s : State) (i : StationNo) (peak : Nat) : State :=
  if !(s.station i).gateEnable then s
  else
    let g := s.movedGate i peak
    let moved := s.modGate i fun _ => g
    if g.isOpen = (s.gate i).isOpen then moved else moved.evaluateAll i

end Sys2Proof.Machine
end

