-- ==== Sys2Proof/Machine/Calls.lean ====
section
/-! DEFINITION. The Call Unit: placing, answering and ending calls by key, host and link (R76 to R87). -/

namespace Sys2Proof.Machine

/-- Whether a station is a party to a call (R76). -/
def Call.isParty (c : Call) (i : StationNo) : Bool := c.caller == i || c.callee == i

/-- The other party of a call. -/
def Call.other (c : Call) (i : StationNo) : StationNo := if c.caller = i then c.callee else c.caller

/-- Whether a call is RINGING. -/
def Call.isRinging (c : Call) : Bool :=
  match c.state with
  | .ringing _ => true
  | .connected _ => false

/-- The call that a station is party to, with its entry number (R76: at most one). -/
def State.callOf (s : State) (i : StationNo) : Option (CallNo × Call) :=
  (allOf 24).findSome? fun c =>
    match s.call c with
    | some e => if e.isParty i then some (c, e) else none
    | none => none

/-- The lowest-numbered free call entry (R76). -/
def State.freeCall (s : State) : Option CallNo := (allOf 24).find? fun c => (s.call c).isNone

/-- Call entry `c` put in use, RINGING, with its ring expiry 30 s after now (R77, R78). -/
def State.placeCall (s : State) (c : CallNo) (caller callee : StationNo) (origin : CallOrigin) : State :=
  s.setCall c (some ⟨caller, callee, origin, .ringing (s.now + ringTime)⟩)

/-- The reason of a call's end (R83). -/
inductive EndReason where
  | cancelled | noAnswer | hungUp | host | linkLost
deriving DecidableEq, Repr

/-- The code of a reason (R83). -/
def EndReason.code : EndReason → Nat
  | .cancelled => 1 | .noAnswer => 2 | .hungUp => 3 | .host => 4 | .linkLost => 5

/-- The call of entry `c` ends: its end is handed to the Planner if it was CONNECTED, the entry becomes free, and
CALL_ENDED is raised (R83). -/
def State.endCall (s : State) (c : CallNo) (e : Call) (reason : EndReason) : State :=
  let freed := s.setCall c none
  (if e.isRinging then freed else freed.replan).raise .callEnded c.val reason.code

/-- The RINGING call of entry `c` is answered: it takes an arrival number, stops ringing, becomes CONNECTED and is
handed to the Planner (R81). -/
def State.connectCall (s : State) (c : CallNo) (e : Call) : State :=
  (s.setCall c (some { e with state := .connected s.talk.arrivals })).issueArrival.replan

/-- Whether station `x` can be called: configured, with audio, UP and party to no call (R77). -/
def State.callable (s : State) (x : StationNo) : Bool :=
  (s.station x).configured && (s.station x).kind.hasAudio && s.isUp x && (s.callOf x).isNone

/-- A press of a key bound CALL(x) by station `i`: a placement when it is party to no call (R77), and else an action on
its call (R79). -/
def State.callPress (s : State) (i x : StationNo) : Press :=
  match s.callOf i with
  | none =>
    match s.callable x, s.freeCall with
    | true, some c => ⟨s.placeCall c i x .key, true⟩
    | _, _ => ⟨s, false⟩
  | some (c, e) =>
    if e.other i ≠ x then ⟨s, false⟩
    else if !e.isRinging then ⟨s.endCall c e .hungUp, true⟩
    else if e.caller = i then ⟨s.endCall c e .cancelled, true⟩
    else ⟨s.connectCall c e, true⟩

/-- A press of an ANSWER key by station `i` (R80). -/
def State.answerPress (s : State) (i : StationNo) : Press :=
  match s.callOf i with
  | none => ⟨s, false⟩
  | some (c, e) =>
    if !e.isRinging then ⟨s.endCall c e .hungUp, true⟩
    else if e.callee = i then ⟨s.connectCall c e, true⟩
    else ⟨s, false⟩

/-- UP exit of station `i` in the Call Unit: its call ends with reason LINK_LOST (R85). -/
def State.callExit (s : State) (i : StationNo) : State :=
  match s.callOf i with
  | some (c, e) => s.endCall c e .linkLost
  | none => s

/-- The call field of the lamp byte (R87). -/
def State.callField (s : State) (i : StationNo) : Nat :=
  match s.callOf i with
  | none => 0
  | some (_, e) => if !e.isRinging then 3 else if e.caller = i then 1 else 2

end Sys2Proof.Machine
end

