-- ==== Sys2Proof/Machine/Cues.lean ====
section
/-! DEFINITION. The Cue Unit and the Lamp Unit: standby, acknowledgement, GO, cancel, and the standby queues and lamps
(R125 to R155). -/

namespace Sys2Proof.Machine

/-! ## Statuses and evaluation (R130) -/

/-- Whether the policy of a cue is met by its statuses (R130). -/
def Cue.policyMet (c : Cue) : Bool :=
  match c.policy with
  | .all => c.targets.all fun t => t.status == some .acked
  | .any => c.targets.any fun t => t.status == some .acked

/-- A cue in STANDBY or READY evaluated; in any other state it stays (R130). -/
def Cue.evaluate (c : Cue) : Cue :=
  match c.state with
  | .standby => if c.policyMet then { c with state := .ready } else c
  | .ready => if c.policyMet then c else { c with state := .standby }
  | .staged | .go => c

/-- A cue with the status of one target replaced. -/
def Cue.setStatus (c : Cue) (i : StationNo) (status : Option EntryStatus) : Cue :=
  { c with targets := c.targets.map fun t => if t.station = i then { t with status } else t }

/-- Whether a cue stands by: STANDBY or READY. -/
def Cue.standing (c : Cue) : Bool := c.state == .standby || c.state == .ready

/-- The stations of a cue's target list, in order. -/
def Cue.stations (c : Cue) : List StationNo := c.targets.map Target.station

/-- The Lamp Unit's report of a change of the entry of cue `c` in the queue of station `i`; a report that names a cue
that does not stand by is discarded (R130). -/
def State.reportEntry (s : State) (c : CueNo) (i : StationNo) (status : EntryStatus) : State :=
  match s.cue c with
  | some q => if q.standing then s.setCue c (some (q.setStatus i (some status)).evaluate) else s
  | none => s

/-! ## Queues (R144 to R150) -/

/-- Whether the standby queue of a station has room (R145). -/
def State.queueHasRoom (s : State) (i : StationNo) : Bool := (s.lamp i).queue.length < Config.queueEntries

/-- The status of an entry that joins the queue of a station (R145). -/
def State.joinStatus (s : State) (i : StationNo) : EntryStatus := if s.isUp i then .pending else .lost

/-- One entry for cue `c` appended to the queue of station `i` (R145). -/
def State.appendEntry (s : State) (c : CueNo) (i : StationNo) : State :=
  s.modLamp i fun l => { l with queue := l.queue ++ [{ cue := c, status := s.joinStatus i }] }

/-- The entry of cue `c` removed from the queue of station `i` (R146). -/
def State.removeEntry (s : State) (c : CueNo) (i : StationNo) : State :=
  s.modLamp i fun l => { l with queue := l.queue.filter fun e => e.cue != c }

/-- The go-lamp timer of station `i` set by a GO: it runs to the later of its end and `endTime` (R152). -/
def State.setGoLamp (s : State) (i : StationNo) (endTime : Time) : State :=
  s.modLamp i fun l => { l with goLamp := some (match l.goLamp with | some e => max e endTime | none => endTime) }

/-- Whether an acknowledge press can land on an entry: PENDING and shown (R148). -/
def QueueEntry.answerable (e : QueueEntry) : Bool := e.status == .pending && e.shown

/-- An ACK press of station `i`: the oldest entry that is PENDING and shown becomes ACKED and is reported; with none,
nothing happens (R148). -/
def State.ackPress (s : State) (i : StationNo) : State :=
  match (s.lamp i).queue.find? QueueEntry.answerable with
  | none => s
  | some e =>
    let queue := (s.lamp i).queue.map fun d => if d.cue = e.cue then { d with status := .acked } else d
    (s.modLamp i fun l => { l with queue }).reportEntry e.cue i .acked

/-- UP exit of station `i` in the Lamp Unit: every entry becomes LOST with its shown mark cleared, and each whose status
changed is reported, in queue order (R149). -/
def State.lampExit (s : State) (i : StationNo) : State :=
  let queue := (s.lamp i).queue
  let s := s.modLamp i fun l =>
    { l with queue := l.queue.map fun e => { e with status := .lost, shown := false, listed := false } }
  (queue.filter fun e => e.status != .lost).foldl (fun s e => s.reportEntry e.cue i .lost) s

/-- UP entry of station `i` in the Lamp Unit: every LOST entry becomes PENDING with its shown mark clear, and each is
reported, in queue order (R150). -/
def State.lampEntry (s : State) (i : StationNo) : State :=
  let queue := (s.lamp i).queue
  let s := s.modLamp i fun l =>
    { l with queue := l.queue.map fun e =>
        if e.status = .lost then { e with status := .pending, shown := false, listed := false } else e }
  (queue.filter fun e => e.status == .lost).foldl (fun s e => s.reportEntry e.cue i .pending) s

/-- The entries that are PENDING when a poll to station `i` is built are put on its list (R35, R151). -/
def State.listEntries (s : State) (i : StationNo) : State :=
  s.modLamp i fun l => { l with queue := l.queue.map fun e => { e with listed := e.status == .pending } }

/-- A FLASH poll to station `i` has been completely sent: each listed entry still PENDING is marked shown (R147). -/
def State.markShown (s : State) (i : StationNo) : State :=
  s.modLamp i fun l =>
    { l with queue := l.queue.map fun e =>
        if e.listed && e.status == .pending then { e with shown := true } else e }

/-! ## Standby, GO and cancel (R128 to R136) -/

/-- Whether every target's queue has room for a standby (R128). -/
def State.roomForAll (s : State) (q : Cue) : Bool := q.stations.all s.queueHasRoom

/-- The number of a cue's targets whose new entries join LOST (R128). -/
def State.lostTargets (s : State) (q : Cue) : Nat := (q.stations.filter fun i => s.joinStatus i == .lost).length

/-- A standby taken on STAGED cue `c`: entries appended in target order, statuses set, the ack timer started, the state
STANDBY (R128). -/
def State.standBy (s : State) (c : CueNo) (q : Cue) : State :=
  let joined := q.stations.foldl (fun s i => s.appendEntry c i) s
  joined.setCue c (some { q with
    targets := q.targets.map fun t => { t with status := some (s.joinStatus t.station) }
    ackTimer := if q.ackWindow = 0 then none else some (s.now + seconds q.ackWindow)
    state := .standby })

/-- A cancel taken on standing cue `c`: the ack timer stops, the entries leave the queues, the statuses become absent,
the no-ack mark is cleared, the state is STAGED (R135). -/
def State.cancelCue (s : State) (c : CueNo) (q : Cue) : State :=
  let removed := q.stations.foldl (fun s i => s.removeEntry c i) s
  removed.setCue c (some { q with
    ackTimer := none
    targets := q.targets.map fun t => { t with status := none }
    noAck := false
    state := .staged })

/-- How GO finds a cue: the status that refuses it, or the unconfirmed flag with which it is taken (R132). -/
def goOutcome (q : Option Cue) : Except Status Bool :=
  match q with
  | none => .error .noRecord
  | some q =>
    match q.state with
    | .staged => if q.direct then .ok true else .error .notStanding
    | .standby => .ok true
    | .ready => .ok false
    | .go => .error .busy

/-- A GO taken on cue `c`: the unconfirmed flag, the ack timer stopped, the statuses frozen, the entries removed, the go
lamps and the go timer set, the state GO (R133, R146, R152). -/
def State.giveGo (s : State) (c : CueNo) (q : Cue) (unconfirmed : Bool) : State :=
  let endTime := s.now + seconds q.goDisplay
  let removed := q.stations.foldl (fun s i => s.removeEntry c i) s
  let lit := q.stations.foldl (fun s i => s.setGoLamp i endTime) removed
  lit.setCue c (some { q with
    unconfirmed, ackTimer := none, goTimer := some endTime, state := .go })

/-- A press of a key bound STANDBY to cue `c` (R128, R129, R139). -/
def State.standbyPress (s : State) (c : CueNo) : Press :=
  match s.cue c with
  | none => ⟨s, false⟩
  | some q =>
    match q.state with
    | .staged => if s.roomForAll q then ⟨s.standBy c q, true⟩ else ⟨s, false⟩
    | .standby | .ready => ⟨s.cancelCue c q, true⟩
    | .go => ⟨s, false⟩

/-- A press of a key bound GO to cue `c` (R132, R139). -/
def State.goPress (s : State) (c : CueNo) : Press :=
  match s.cue c, goOutcome (s.cue c) with
  | some q, .ok unconfirmed => ⟨s.giveGo c q unconfirmed, true⟩
  | _, _ => ⟨s, false⟩

/-! ## Lamps (R151) -/

/-- The standby lamp of the lamp byte: 0 OFF, 1 STEADY, 2 FLASH (R34, R151, R180). -/
def Lamp.standbyLamp (l : Lamp) : Nat :=
  if l.queue.any fun e => e.status == .pending then 2 else if l.queue.isEmpty then 0 else 1

/-- Whether an ACK key shows ON: an entry is PENDING and shown (R151). -/
def Lamp.ackTally (l : Lamp) : Bool := l.queue.any QueueEntry.answerable

end Sys2Proof.Machine
end

