-- ==== Sys2Proof/Machine/Keys.lean ====
section
/-! DEFINITION. The Station Table's part in a key edge: dispatch by binding, stale and deny marks (R14 to R16), the
tallies (R17, R64, R87, R140, R151), and the loss and return of a station (R29, R32). -/

namespace Sys2Proof.Machine

/-! ## Tallies (R17) -/

/-- A tally (R180). -/
inductive Tally where
  | off | on | flash | fast
deriving DecidableEq, Repr

/-- The code of a tally (R180). -/
def Tally.code : Tally → Byte
  | .off => 0 | .on => 1 | .flash => 2 | .fast => 3

/-- The tally of a key of station `i` bound TALK to net `n` (R64). -/
def State.talkTally (s : State) (i : StationNo) (n : NetNo) : Tally :=
  if !(s.net n).isOpen then .off
  else
    match s.intent i n with
    | none => .off
    | some x => if x.arrival.isSome then .on else .flash

/-- The tally of a key of station `i` bound CALL to station `x` (R87). -/
def State.callTally (s : State) (i x : StationNo) : Tally :=
  match s.callOf i with
  | some (_, e) => if e.other i = x then (if e.isRinging then .flash else .on) else .off
  | none => .off

/-- The tally of an ANSWER key of station `i` (R87). -/
def State.answerTally (s : State) (i : StationNo) : Tally :=
  match s.callOf i with
  | some (_, e) => if !e.isRinging then .on else if e.callee = i then .flash else .off
  | none => .off

/-- The tally of a key bound STANDBY to a cue entry (R140). -/
def standbyTally : Option Cue → Tally
  | none => .off
  | some q =>
    match q.state with
    | .staged | .go => .off
    | .standby => if q.noAck then .fast else .flash
    | .ready => .on

/-- The tally of a key bound GO to a cue entry (R140). -/
def goTally : Option Cue → Tally
  | none => .off
  | some q => if q.state = .go then .on else .off

/-- The tally of key `k` of station `i`: FAST with a deny mark, and else that of its binding (R17). -/
def State.tally (s : State) (i : StationNo) (k : KeyNo) : Tally :=
  if (s.key i k).deny.isSome then .fast
  else
    match (s.key i k).binding with
    | .none => .off
    | .talk n _ => s.talkTally i n
    | .call x => s.callTally i x
    | .answer => s.answerTally i
    | .allCall =>
      match s.talk.allCall with
      | some a => if a.owner = i then .on else .off
      | none => .off
    | .standby c => standbyTally (s.cue c)
    | .go c => goTally (s.cue c)
    | .ack => if (s.lamp i).ackTally then .on else .off

/-! ## Dispatch (R15, R16) -/

/-- Key `k` of station `i` is given or loses its stale mark. -/
def State.setStale (s : State) (i : StationNo) (k : KeyNo) (b : Bool) : State :=
  s.modKey i k fun x => { x with stale := b }

/-- The state after a press: a refused one sets the key's deny mark, 2 s from the arrival time (R16). -/
def Press.settle (p : Press) (i : StationNo) (k : KeyNo) (at_ : Time) : State :=
  if p.taken then p.state else p.state.modKey i k fun x => { x with deny := some (at_ + denyTime) }

/-- A press of key `k` of station `i` dispatched by its binding, its stale mark cleared first (R15). -/
def State.dispatchPress (s : State) (i : StationNo) (k : KeyNo) (at_ : Time) : State :=
  let s := s.setStale i k false
  match (s.key i k).binding with
  | .none => s
  | .talk n mode => (s.talkPress i k n mode at_).settle i k at_
  | .call x => (s.callPress i x).settle i k at_
  | .answer => (s.answerPress i).settle i k at_
  | .allCall => (s.allCallPress i k).settle i k at_
  | .standby c => (s.standbyPress c).settle i k at_
  | .go c => (s.goPress c).settle i k at_
  | .ack => s.ackPress i

/-- A release of key `k` of station `i`: discarded with its stale mark if it has one, and else dispatched by its binding
(R15). -/
def State.dispatchRelease (s : State) (i : StationNo) (k : KeyNo) (at_ : Time) : State :=
  if (s.key i k).stale then s.setStale i k false
  else
    match (s.key i k).binding with
    | .talk n mode => s.talkRelease i k n mode at_
    | .allCall => s.allCallRelease i k
    | .none | .call _ | .answer | .standby _ | .go _ | .ack => s

/-- Whether key `k` is down in a key set (R26). -/
def keyDown (keys : BitVec 8) (k : KeyNo) : Bool := keys.getLsbD k.val

/-- The edges between two key sets dispatched in ascending key number, each whole before the next (R15, R30). -/
def State.dispatchEdges (s : State) (i : StationNo) (old new : BitVec 8) (at_ : Time) : State :=
  (allOf 8).foldl
    (fun s k =>
      match keyDown old k, keyDown new k with
      | false, true => s.dispatchPress i k at_
      | true, false => s.dispatchRelease i k at_
      | _, _ => s)
    s

/-- Key `k` of station `i` is given another binding: the old one's effect is ended, the deny mark removed, the stale mark
set if the key is down in the last accepted key set and cleared otherwise, and the new binding written (R14). -/
def State.rebind (s : State) (i : StationNo) (k : KeyNo) (b : Binding) : State :=
  let ended :=
    match (s.key i k).binding with
    | .talk n _ => s.endTalkBinding i k n
    | .allCall => s.allCallRelease i k
    | .none | .call _ | .answer | .standby _ | .go _ | .ack => s
  ended.modKey i k fun _ => { binding := b, deny := none, stale := keyDown (s.link i).keys k }

/-! ## Loss and return of a station (R29, R32) -/

/-- UP exit of station `i`: the releases of the keys down in the last accepted key set, at the time of the exit; then its
talk, its call, its queue and its plan (R32). The link state has left UP already. -/
def State.upExit (s : State) (i : StationNo) : State :=
  let s := s.dispatchEdges i (s.link i).keys 0 s.now
  (((s.talkExit i).callExit i).lampExit i).emptyPlan i

/-- UP entry of station `i`, with the baseline key set: no edges are taken, its LOST entries return and its plan begins;
LINK_UP is raised if it was DOWN (R29, R105). -/
def State.upEntry (s : State) (i : StationNo) (keys : BitVec 8) : State :=
  let wasDown := (s.link i).state == .down
  let s := s.modLink i fun _ => { state := .up, misses := 0, keys }
  let s := (s.lampEntry i).beginPlan i
  if wasDown then s.raise .linkUp i.val else s

end Sys2Proof.Machine
end

