-- ==== Sys2Proof/Machine/Buses.lean ====
section
/-! DEFINITION. The Station Bus Controller: polls, replies, slots and link supervision (R18 to R36). -/

namespace Sys2Proof.Machine

/-! ## The poll (R23, R25, R34, R180) -/

/-- The lamp byte of a poll to station `i` (R34, R180). -/
def State.lampByte (s : State) (i : StationNo) : Byte :=
  natByte ((s.lamp i).standbyLamp + (if (s.lamp i).goLamp.isSome then 4 else 0) + s.callField i * 8
    + (if s.receivesAllCall i then 32 else 0))

/-- A tally byte: the tallies of four keys from `first`, two bits each, the lowest key lowest (R180). -/
def State.tallyByte (s : State) (i : StationNo) (first : Nat) : Byte :=
  (allOf 8).foldl
    (fun acc k =>
      if first ≤ k.val ∧ k.val < first + 4 then acc ||| ((s.tally i k).code <<< (2 * (k.val - first))) else acc)
    0

/-- The byte that makes a frame sum to 0 mod 256 (R25). -/
def sumCheck (bytes : List Byte) : Byte := -(bytes.foldl (· + ·) 0)

/-- The five bytes of a poll to station `i`, built from the present state (R23). -/
def State.pollBytes (s : State) (i : StationNo) : Vector Byte 5 :=
  let address := 0x80#8 + natByte (addressOf i).val
  let lamp := s.lampByte i
  let low := s.tallyByte i 0
  let high := s.tallyByte i 4
  #v[address, lamp, low, high, sumCheck [address, lamp, low, high]]

/-- A slot begins on bus `b` at address `a`: the poll is built and begins to be sent, and the entries that are PENDING
now are put on its list (R22, R23, R35). -/
def State.beginSlot (s : State) (b : BusNo) (a : BusAddress) : State :=
  let i := stationAt b a
  let slot : BusSlot := { address := a, poll := s.pollBytes i, flash := (s.lamp i).standbyLamp == 2 }
  (s.listEntries i).modBus b fun r => { r with slot := some slot, driverEnable := true }

/-! ## The cycle (R21) -/

/-- The configured addresses of a bus, ascending. -/
def State.addresses (s : State) (b : BusNo) : List BusAddress :=
  (allOf 12).filter fun a => (s.station (stationAt b a)).configured

/-- The lowest configured address above `a`, or the lowest configured address if none lies above (R21). -/
def State.nextAddress (s : State) (b : BusNo) (a : BusAddress) : Option BusAddress :=
  match (s.addresses b).find? fun x => a < x with
  | some x => some x
  | none => (s.addresses b).head?

/-- The first slot of a bus, at the lowest configured address; with none configured the bus is idle (R21, R28). -/
def State.beginCycle (s : State) (b : BusNo) : State :=
  match (s.addresses b).head? with
  | some a => s.beginSlot b a
  | none => s

/-- The slot of bus `b` ends and the next begins at the address that follows; with none configured the bus becomes idle
(R21, R22). -/
def State.nextSlot (s : State) (b : BusNo) (a : BusAddress) : State :=
  let s := s.modBus b fun r => { r with slot := none }
  match s.nextAddress b a with
  | some x => s.beginSlot b x
  | none => s

/-! ## Replies (R20, R24 to R26) -/

/-- The number of ones among the data bits of a character. -/
def onesOf (data : Byte) : Nat := (List.range 8).countP fun k => data.getLsbD k

/-- Whether the received parity bit is an error in a parity mode (R20). -/
def parityFails (mode : Parity) (data : Byte) (parityBit : Bool) : Bool :=
  let ones := onesOf data + parityBit.toNat
  match mode with
  | .none | .zero => false
  | .odd => ones % 2 == 0
  | .even => ones % 2 == 1

/-- The parity bit that the part sends with a data byte, none in mode NONE (R20). -/
def paritySent (mode : Parity) (data : Byte) : Option Bool :=
  match mode with
  | .none => none
  | .zero => some false
  | .odd => some (onesOf data % 2 == 0)
  | .even => some (onesOf data % 2 == 1)

/-- The bits of one character on the line, first to last: a start bit at zero, the eight data bits, least significant
first, the parity bit, none in mode NONE, and the stop bit, which is one in a character that the part sends (R20). -/
def characterBits (data : Byte) (parity : Option Bool) (stop : Bool) : List Bool :=
  false :: (List.range 8).map data.getLsbD ++ parity.toList ++ [stop]

/-- A received character: its stop bit found at zero is a framing error (R20). -/
def receiveChar (mode : Parity) (data : Byte) (parityBit stopBit : Bool) : ReplyChar :=
  ⟨data, parityFails mode data parityBit, !stopBit⟩

/-- A slot with a received character. In the window it begins the reply, in the reply it is collected, and the fourth
ends the reply, gives its arrival time and begins the guard. In the guard after a reply it is an extra character. It is
not taken while the poll is sent, nor as a late reply after a closed window (R20, R22, R24, R30). -/
def BusSlot.takeChar (x : BusSlot) (c : ReplyChar) (now : Time) : BusSlot :=
  match x.phase with
  | .poll => x
  | .window | .reply =>
    let chars := x.chars ++ [c]
    if chars.length < 4 then { x with chars, phase := .reply } else { x with chars, phase := .guard, arrival := now }
  | .guard => if x.chars.isEmpty then x else { x with extra := true }

/-- The key-down set of a slot's reply, if it is good for a station of kind `kind` (R25, R26). -/
def BusSlot.goodKeys (x : BusSlot) (kind : Kind) : Option (BitVec 8) :=
  match x.chars with
  | [c1, c2, c3, c4] =>
    if !x.extra && x.chars.all (fun c => !c.framingError && !c.parityError)
        && c1.data + c2.data + c3.data + c4.data == 0#8
        && c1.data == 0x40#8 + natByte x.address.val && c3.data == kind.code
    then some c2.data else none
  | _ => none

/-! ## Link supervision (R29 to R31) -/

/-- A slot that ends good for station `i` with a key-down set: UP entry, or the edges of an UP station (R29, R30). A
station that is UNPOLLED has no slot and takes none. -/
def State.goodSlot (s : State) (i : StationNo) (keys : BitVec 8) (arrival : Time) : State :=
  let old := s.link i
  match old.state with
  | .unpolled => s
  | .probing | .down => s.upEntry i keys
  | .up => (s.modLink i fun l => { l with misses := 0, keys }).dispatchEdges i old.keys keys arrival

/-- A slot that ends bad or missed for station `i`: the third consecutive miss takes an UP station DOWN, with LINK_DOWN
and the loss effects (R31). -/
def State.missedSlot (s : State) (i : StationNo) : State :=
  if s.isUp i then
    if (s.link i).misses < 2 then s.modLink i fun l => { l with misses := l.misses + 1 }
    else ((s.modLink i fun l => { l with state := .down, misses := 3 }).raise .linkDown i.val).upExit i
  else s

/-- The outcome of a slot handed to link supervision; a discarded slot has none (R21, R22). -/
def State.superviseSlot (s : State) (b : BusNo) (x : BusSlot) : State :=
  let i := stationAt b x.address
  if x.discarded then s
  else
    match x.goodKeys (s.station i).kind with
    | some keys => s.goodSlot i keys x.arrival
    | none => s.missedSlot i

/-! ## Starting, stopping and changes of stations (R28, R33, R36) -/

/-- Station `i` enters PROBING with miss count 0 and an empty key set (R27). -/
def State.probe (s : State) (i : StationNo) : State := s.modLink i fun _ => { state := .probing }

/-- The configured stations of a bus, by ascending address. -/
def State.stationsOn (s : State) (b : BusNo) : List StationNo := (s.addresses b).map (stationAt b)

/-- Bus `b` is started (R28). -/
def State.startBus (s : State) (b : BusNo) : State :=
  let s := (s.stationsOn b).foldl (fun s i => s.probe i) s
  (s.modBus b fun r => { r with running := true, slot := none }).beginCycle b

/-- Station `i` moves to UNPOLLED; if it was UP the loss effects follow (R32, R33). -/
def State.unpoll (s : State) (i : StationNo) : State :=
  let wasUp := s.isUp i
  let s := s.modLink i fun l => { l with state := .unpolled }
  if wasUp then s.upExit i else s

/-- Whether a slot's poll is being sent. -/
def Bus.sending (r : Bus) : Bool :=
  match r.slot with
  | some x => x.phase == .poll
  | none => false

/-- A bus whose slot is abandoned: of a poll being sent the character on the line is completed, with the driver enable
kept until it is out, and the rest is not sent; the driver enable is deasserted otherwise (R33). -/
def Bus.abandon (r : Bus) : Bus :=
  let busy := r.sending || r.finishing
  { r with running := false, slot := none, driverEnable := busy, finishing := busy }

/-- The abandoned character of a bus has been sent: the driver enable is deasserted, unless the bus has been started again
and sends a poll (R20, R33; log entry 14). -/
def Bus.finishCharacter (r : Bus) : Bus :=
  if r.finishing then { r with finishing := false, driverEnable := r.sending } else r

/-- Bus `b` is stopped: the slot is abandoned, and its stations move to UNPOLLED in ascending address (R33; log entry
9). -/
def State.stopBus (s : State) (b : BusNo) : State :=
  let s := s.modBus b Bus.abandon
  (s.stationsOn b).foldl (fun s i => s.unpoll i) s

/-- The link and the poll cycle take up a new station: on a RUNNING bus it enters PROBING, and its slot begins at once
if the bus was idle; on a STOPPED bus it stays UNPOLLED (R2, R21, R36). -/
def State.takeUp (s : State) (i : StationNo) : State :=
  let r := s.busRec (busOf i)
  if r.running then
    let s := s.probe i
    if r.slot.isNone then s.beginSlot (busOf i) (addressOf i) else s
  else s

/-- A slot marked to have its outcome discarded if it is at address `a` (R21). -/
def BusSlot.discardAt (x : BusSlot) (a : BusAddress) : BusSlot :=
  if x.address = a then { x with discarded := true } else x

/-- A slot in progress for station `i` will have its outcome discarded (R21). -/
def State.discardSlot (s : State) (i : StationNo) : State :=
  s.modBus (busOf i) fun r => { r with slot := r.slot.map fun x => x.discardAt (addressOf i) }

/-- The characters that the transmit line SBn_TX of a bus carries in the poll phase, each with its parity bit, none in
mode NONE (R20, R22); in every other phase the line is idle. -/
def State.sentChars (s : State) (b : BusNo) : List (Byte × Option Bool) :=
  match (s.busRec b).slot with
  | some x =>
    if x.phase = .poll then x.poll.toList.map fun d => (d, paritySent (s.busRec b).parity d) else []
  | none => []

/-- The bits that the transmit line of a bus carries in the poll phase, first to last, with no idle time between two
characters (R20); before and after them the line idles at one. -/
def State.sentBits (s : State) (b : BusNo) : List Bool :=
  (s.sentChars b).flatMap fun c => characterBits c.1 c.2 true

end Sys2Proof.Machine
end

