-- ==== Sys2Proof/Machine/Port.lean ====
section
/-! DEFINITION. What the requests of the command port share: taking a request and answering it (R158, R159, R161), the
staging buffer and its flush (R163 to R167), and the reset (R169, R170). -/

namespace Sys2Proof.Machine

/-! ## Answers (R161) -/

/-- What the processing of a request gives: the state, the status and the value of its reply. -/
structure Answer where
  state : State
  status : Status
  value : BitVec 24

/-- A request refused: no state is changed and the value is 0 (R161). -/
def refuse (s : State) (status : Status) : Answer := ⟨s, status, 0⟩

/-- A request taken and answered DONE (R161). -/
def done (s : State) (value : BitVec 24 := 0) : Answer := ⟨s, .done, value⟩

/-- The record number as a number of a table of `n` records; a number outside is refused BAD_RECORD (R161). -/
def withRecord (n : Nat) (record : BitVec 16) (s : State) (f : Fin n → Answer) : Answer :=
  match numberBelow n record.toNat with
  | some i => f i
  | none => refuse s .badRecord

/-- Whether the port processes a request now: start-up has ended, and the request in process is this one, or none is, in
which case the command stands for its whole frame (R159; log entry 2). -/
def State.accepts (s : State) (q : Request) : Bool :=
  s.phase == .running && (s.port.inProcess == none || s.port.inProcess == some q)

/-- The reply of a request in the reply slot; no request is in process any more (R158). -/
def State.answer (s : State) (q : Request) (status : Status) (value : BitVec 24) : State :=
  { s with port := { s.port with reply := .completed status q.kind.code q.record value, inProcess := none } }

/-- A request that has been taken and is still in process, its reply slot IN_PROGRESS (R158, R159). -/
def State.holdRequest (s : State) (q : Request) : State :=
  { s with port := { s.port with reply := .inProgress q.kind.code q.record, inProcess := some q } }

/-- A request taken at `t`, processed, and answered after every effect has been handed on; a request that the port does
not take is discarded (R159, R161). -/
def request (kind : RequestKind) (t : Time) (record : BitVec 16) (argument : BitVec 32) (process : State → Answer)
    (s : State) : Result :=
  let s := s.clockTo t
  let q : Request := ⟨kind, record, argument⟩
  if s.accepts q then
    let x := process s
    .next (x.state.answer q x.status x.value)
  else .next s

/-! ## The staging buffer (R163 to R167) -/

/-- The values staged, each with its level address, in ascending address order (R165). -/
def Staging.writes (b : Staging) : List (Nat × Int) :=
  (allOf 8).filterMap fun k => (b.values.get k).map fun v => (b.group.val * 8 + k.val, v)

/-- Whether the buffer holds a write to a level address. -/
def State.stages (s : State) (address : Nat) : Bool :=
  match s.port.staging with
  | some b => b.writes.any fun w => w.1 == address
  | none => false

/-- Whether the buffer holds a level of station `i` (R166). -/
def State.stagesStation (s : State) (i : StationNo) : Bool :=
  s.stages (384 + i.val) || s.stages (480 + i.val) || s.stages (576 + i.val) || s.stages (672 + i.val)

/-- Whether the buffer holds the listen level of entry `e` (R50). -/
def State.stagesEntry (s : State) (e : EntryNo) : Bool := s.stages e.val

/-- One staged value applied to its record: a listen level is handed to the Planner as it is written (R43); a station's
level is written, and the Planner is told after the last (R9). -/
def State.applyLevel (s : State) (address : Nat) (value : Int) : State :=
  match levelAddressOf address with
  | some (.listen e) => (s.modMember e fun m => m.map fun x => { x with level := listenLevelOf value }).replan
  | some (.station f i) => s.modStation i fun r => r.setLevel f value
  | none => s

/-- A flush: every staged value applied in ascending address order, the targets recomputed, the buffer empty and its
timer stopped; a flush of an empty buffer does nothing (R166). -/
def State.flush (s : State) : State :=
  match s.port.staging with
  | none => s
  | some b =>
    let emptied := { s with port := { s.port with staging := none } }
    (b.writes.foldl (fun s w => s.applyLevel w.1 w.2) emptied).replan

/-- The number of values a flush applies (R166). -/
def State.stagedCount (s : State) : Nat :=
  match s.port.staging with
  | none => 0
  | some b => b.writes.length

/-- A flush made on a condition (R166). -/
def State.flushIf (s : State) (c : Bool) : State := if c then s.flush else s

/-- Values placed in the buffer at consecutive addresses from place `k` of a group. -/
def placeValues (values : Vector (Option Int) 8) (k : Nat) : List Int → Vector (Option Int) 8
  | [] => values
  | v :: vs =>
    placeValues (if h : k < 8 then modifyAt values ⟨k, h⟩ fun _ => some v else values) (k + 1) vs

/-- Clamped values staged at consecutive level addresses of group `g`, from place `k`: into an empty buffer with a fresh
timer, into the same group with the timer running on, or after a flush of another group (R165). -/
def State.stage (s : State) (g : GroupNo) (k : Nat) (vs : List Int) : State :=
  let fresh (s : State) : State :=
    { s with port := { s.port with
        staging := some ⟨g, placeValues (Vector.replicate 8 none) k vs, s.now + stagingTime⟩ } }
  match s.port.staging with
  | none => fresh s
  | some b =>
    if b.group = g then { s with port := { s.port with staging := some { b with values := placeValues b.values k vs } } }
    else fresh s.flush

/-! ## Reset (R169, R170) -/

/-- The transaction after a reset: with select low the port waits for it to go high (R156, R169). -/
def Transaction.afterReset : Transaction → Transaction
  | .released => .released
  | .receiving | .completed | .stalled | .awaitingRelease => .awaitingRelease

/-- Every block in its reset state, the reply slot STARTING (R158, R169, R170). The queue of waiting commands, the
reference clock's time and the level of CP_SEL_N are outside the reset. -/
def State.resetTo (s : State) (phase : PartPhase) (lockmode : Bool) : State :=
  { phase, now := s.now, pending := s.pending,
    port := { transaction := s.port.transaction.afterReset, lockmode } }

end Sys2Proof.Machine
end

