-- ==== Sys2Proof/Machine/AudioEvents.lean ====
section
/-! DEFINITION. The meanings of the audio events (R68, R102, R113 to R123) and of the staging buffer's age (R167). -/

namespace Sys2Proof.Machine

/-! ## The audio ports (R2, R109) -/

/-- The sample of an input slot: its first 24 bits; the last 8 are ignored (R109). -/
def slotSample (w : AudioWord) : Sample := w.extractLsb' 8 24

/-- The samples of a frame by station number: station `i` speaks in port `i div 24`, slot `i mod 24` (R2, R109). -/
def samplesOf (ports : AudioPorts) : Vector Sample 96 :=
  Vector.ofFn fun i => slotSample ((ports.get (audioPortOf i)).get (audioSlotOf i))

/-- An output slot: the 24 bits of the sample, then 8 zeros (R109). -/
def outputSlot (x : Int) : AudioWord := BitVec.ofInt 24 x ++ 0#8

/-- What AO0..AO3 carry in the present frame: each slot the sample sent to its station (R2, R109, R110). -/
def State.audioOut (s : State) : AudioPorts :=
  Vector.ofFn fun p => Vector.ofFn fun k => outputSlot (s.channel (audioStation p k)).sent

/-! ## One frame (R110, R113 to R120) -/

/-- A slot after the step of a frame: its current coefficient moved toward its target, and drain completion reported
once when a DRAINING slot stands at 0 (R113, R114). -/
def Slot.step (x : Slot) : Slot :=
  let current := rampStep x.current x.target
  let drained := match x.use with
    | .draining _ _ => current == 0
    | _ => false
  { x with current, reported := x.reported || drained }

/-- The sample that station `i` gives to the mixes of a frame: that of its input slot if it is a configured station with
audio, and 0 otherwise (R110). -/
def State.inputOf (s : State) (samples : Vector Sample 96) (i : StationNo) : Int :=
  if (s.station i).isListener then (samples.get i).toInt else 0

/-- The exact sum of the terms of a plan's slots that are not FREE (R116, R117). -/
def State.mixOf (s : State) (samples : Vector Sample 96) (p : Plan) : Int :=
  (allOf 8).foldl
    (fun acc k =>
      let x := p.slots.get k
      match x.use.occupant with
      | some i => acc + termOf (s.inputOf samples i) x.current
      | none => acc)
    0

/-- The channel of station `i` after a frame: the sample computed in the last frame is sent, the listener's sum is
computed and clamped, a clamp sets the overload flag, and the microphone's magnitude enters the block peak (R110, R117,
R120). The plans are those after the step. -/
def State.channelFrame (s : State) (samples : Vector Sample 96) (i : StationNo) (x : Channel) : Channel :=
  let sum := if s.planInUse i then s.mixOf samples (s.plan i) else 0
  let out := clampSample sum
  { x with
    sent := x.computed
    computed := out
    overload := x.overload || out != sum
    peak := if (s.station i).isListener then max x.peak (sampleMagnitude (samples.get i).toInt) else x.peak }

/-- The frame counted: the 240th ends the block, whose peaks are set aside for BLOCK_END, those of configured stations
with audio alone, and the peaks begin again at 0 (R119, R120; log entry 8). A station that was cleared and configured again
within the block is handed the peak since its reconfiguration; R120 leaves that open, for it hands no peak of a block to a
station cleared in it and measures one configured in it from the next frame (DESIGN CHOICE, log entry 30). -/
def State.countFrame (s : State) : State :=
  if s.mix.frames + 1 < Config.blockFrames then { s with mix := { s.mix with frames := s.mix.frames + 1 } }
  else
    let channels := mapTable s.mix.channels fun i x =>
      { x with peak := 0, ended := if (s.station i).isListener then some x.peak else none }
    { s with mix := { s.mix with frames := 0, blockEnded := true, channels } }

/-- An ordinary frame: every coefficient steps, the terms and sums are formed, and the frame is counted (R113 to R120).
Its AU_FS edge is the last one (R122). -/
def State.frame (s : State) (samples : Vector Sample 96) : State :=
  let s := { s with plans := mapTable s.plans fun _ p => { p with slots := mapTable p.slots fun _ x => x.step } }
  let s := { s with mix := { s.mix with
      channels := mapTable s.mix.channels (s.channelFrame samples)
      lastEdge := s.now } }
  s.countFrame

/-- The block in progress abandoned: the counter and every block peak at 0 (R119, R123). -/
def State.newBlock (s : State) : State :=
  { s with mix := { s.mix with
      frames := 0
      channels := mapTable s.mix.channels fun _ x => { x with peak := 0 } } }

/-- A return of the audio clock: PRESENT, AUDIO_CLOCK RESTORED, and the frame of its edge the first of a new block
(R123). -/
def State.clockReturn (s : State) (samples : Vector Sample 96) : State :=
  let s := ({ s with mix := { s.mix with clockPresent := true } } : State).raise .audioClock clockRestored
  s.newBlock.frame samples

/-- A rising edge of AU_FS once start-up has ended: a frame in PRESENT, a return in ABSENT (R113, R119, R123). -/
def State.audioEdge (s : State) (samples : Vector Sample 96) : State :=
  if s.phase = .running then
    if s.mix.clockPresent then s.frame samples else s.clockReturn samples
  else s

/-- AUDIO_FRAME (R113). An edge that comes in ABSENT is a return (R123; log entry 11). -/
def execAudioFrame (t : Time) (ports : AudioPorts) (s : State) : Result :=
  .next ((s.clockTo t).audioEdge (samplesOf ports))

/-- AUDIO_CLOCK_RETURN: the first edge in ABSENT (R123). In PRESENT there is nothing to return from. -/
def execAudioClockReturn (t : Time) (ports : AudioPorts) (s : State) : Result :=
  let s := s.clockTo t
  .next (if s.mix.clockPresent then s else s.audioEdge (samplesOf ports))

/-- The clock lost: ABSENT, the block abandoned, the outputs at logic zero, AUDIO_CLOCK LOST (R119, R122). -/
def State.loseClock (s : State) : State :=
  let s := s.newBlock
  let channels := mapTable s.mix.channels fun _ x => { x with sent := 0 }
  State.raise { s with mix := { s.mix with clockPresent := false, channels } } .audioClock clockLost

/-- AUDIO_CLOCK_LOST: 1 ms in PRESENT with no edge (R122). -/
def execAudioClockLost (t : Time) (s : State) : Result :=
  let s := s.clockTo t
  .next (if s.phase = .running ∧ s.mix.clockPresent = true ∧ s.reached (s.mix.lastEdge + clockLossTime) = true
    then s.loseClock else s)

/-! ## Drain completion (R102, R114) -/

/-- DRAIN_COMPLETION: the Planner takes the report of slot `k` of the plan of station `i`; one that names a plan not in
use, a slot not DRAINING, or a slot with no report made is discarded (R102; log entry 13). -/
def execDrainCompletion (t : Time) (i : StationNo) (k : SlotNo) (s : State) : Result :=
  let s := s.clockTo t
  .next (if s.planInUse i && ((s.plan i).slots.get k).reported then s.modPlan i fun p => p.completeDrain k else s)

/-! ## Blocks (R68, R118, R119) -/

/-- The peak of station `i` from the block that has ended, set aside until its BLOCK_END, is used up. -/
def State.dropEnded (s : State) (i : StationNo) : State := s.modChannel i fun x => { x with ended := none }

/-- The peak of station `i` handed to the Talk Unit, which moves its gate (R68, R119). -/
def State.handPeak (s : State) (i : StationNo) : State :=
  match (s.channel i).ended with
  | some peak => (s.dropEnded i).moveGate i peak
  | none => s

/-- The overload flag of station `i` examined: OVERLOAD raised if it is set, and the flag cleared (R118). -/
def State.examineOverload (s : State) (i : StationNo) : State :=
  if (s.channel i).overload then (s.raise .overload i.val).modChannel i fun x => { x with overload := false } else s

/-- BLOCK_END: the peaks of the block that has ended are handed over and the overload flags examined, in ascending
station number (R118, R119; log entries 8 and 9). -/
def execBlockEnd (t : Time) (s : State) : Result :=
  let s := s.clockTo t
  .next (if s.mix.blockEnded then
      let s := { s with mix := { s.mix with blockEnded := false } }
      let s := (allOf 96).foldl (fun s i => s.handPeak i) s
      (allOf 96).foldl (fun s i => s.examineOverload i) s
    else s)

/-- GATE_HOLD_EXPIRY: at the end of a block, the OPEN gate of station `i` whose hold count the block peak brings to 0
closes; its peak is then used up, and BLOCK_END does not move the gate again (R68; log entry 8). -/
def execGateHoldExpiry (t : Time) (i : StationNo) (s : State) : Result :=
  let s := s.clockTo t
  match (s.channel i).ended with
  | some peak =>
    .next (if (s.station i).gateEnable && (s.gate i).isOpen && !(s.movedGate i peak).isOpen then s.handPeak i else s)
  | none => .next s

/-! ## The staging buffer's age (R167) -/

/-- STAGING_AGE_EXPIRY: the buffer whose age timer has reached its expiry is flushed (R166, R167). -/
def execStagingAgeExpiry (t : Time) (s : State) : Result :=
  let s := s.clockTo t
  match s.port.staging with
  | some b => .next (if s.reached b.expiry then s.flush else s)
  | none => .next s

end Sys2Proof.Machine
end

