-- ==== Sys2Proof/Machine/BusEvents.lean ====
section
/-! DEFINITION. The meanings of the station bus events (R22 to R35). -/

namespace Sys2Proof.Machine

/-- POLL_COMPLETELY_SENT: the driver enable is deasserted (a character abandoned before the poll is long out), a FLASH poll is reported to the Lamp Unit, and the reply
window opens (R20, R22, R35, R147). A slot whose station has been cleared is reported like any other: the station then
has no entry on the list. -/
def execPollCompletelySent (t : Time) (b : BusNo) (s : State) : Result :=
  let s := s.clockTo t
  match (s.busRec b).slot with
  | some x =>
    if x.phase = .poll then
      let marked := if x.flash then s.markShown (stationAt b x.address) else s
      .next (marked.modBus b fun r => { r with
        slot := some { x with phase := .window }, driverEnable := false, finishing := false })
    else .next s
  | none => .next s

/-- WINDOW_CLOSE: with no reply begun, the guard begins (R22). -/
def execWindowClose (t : Time) (b : BusNo) (s : State) : Result :=
  let s := s.clockTo t
  match (s.busRec b).slot with
  | some x =>
    .next (if x.phase = .window then s.modBus b fun r => { r with slot := some { x with phase := .guard } } else s)
  | none => .next s

/-- REPLY_CHARACTER: the character is collected or discarded by the slot's phase; between slots and on a STOPPED bus it
is not taken (R18, R24). -/
def execReplyCharacter (t : Time) (b : BusNo) (data : Byte) (parityBit stopBit : Bool) (s : State) : Result :=
  let s := s.clockTo t
  match (s.busRec b).slot with
  | some x =>
    let c := receiveChar (s.busRec b).parity data parityBit stopBit
    .next (s.modBus b fun r => { r with slot := some (x.takeChar c s.now) })
  | none => .next s

/-- REPLY_GAP: the reply is declared over with fewer than four bytes, and the guard begins (R24). -/
def execReplyGap (t : Time) (b : BusNo) (s : State) : Result :=
  let s := s.clockTo t
  match (s.busRec b).slot with
  | some x =>
    .next (if x.phase = .reply then s.modBus b fun r => { r with slot := some { x with phase := .guard } } else s)
  | none => .next s

/-- GUARD_END: the slot ends, its outcome is handed to link supervision, and the next slot begins (R21, R22). -/
def execGuardEnd (t : Time) (b : BusNo) (s : State) : Result :=
  let s := s.clockTo t
  match (s.busRec b).slot with
  | some x => .next (if x.phase = .guard then (s.superviseSlot b x).nextSlot b x.address else s)
  | none => .next s

/-- STOPPED_BUS_CHARACTER_COMPLETE: the character that BUS STOP left on the line is out, and its line goes idle (R33). With
none on the line nothing has completed. -/
def execStoppedBusCharacterComplete (t : Time) (b : BusNo) (s : State) : Result :=
  .next ((s.clockTo t).modBus b Bus.finishCharacter)

end Sys2Proof.Machine
end

