-- ==== Sys2Proof/Machine/CueCommands.lean ====
section
/-! DEFINITION. The meanings of the cue requests, the cue and lamp timers (R126 to R143, R152) and the notice requests
(R173, R174). -/

namespace Sys2Proof.Machine

/-! ## CUE DEFINE (R126, R127) -/

/-- The target stations in the transfer area, none where a number is above 95 (R126). -/
def Port.areaTargets (p : Port) : Option (List StationNo) :=
  (List.range (p.areaByte 8).toNat).mapM fun k => numberBelow 96 (p.areaByte (9 + k)).toNat

/-- Whether the label and the policy and flags byte in the transfer area are in range: check 3 of R126. -/
def Port.areaCueInRange (p : Port) : Bool :=
  (p.areaByte 0).toNat ≤ 15 && p.areaWord 1 ≤ 9999 && (p.areaByte 3).toNat ≤ 9 && (p.areaByte 4).toNat ≤ 15

/-- Whether another cue in use holds a label: check 7 of R126. -/
def State.labelTaken (s : State) (department number point : Nat) : Bool :=
  s.cues.toList.any fun c =>
    match c with
    | some q => q.department == department && q.number == number && q.point == point
    | none => false

/-- The cue that the transfer area defines, STAGED, with the ack window and the go display clamped (R127, R176). -/
def Port.areaCue (p : Port) (targets : List StationNo) : Cue :=
  let flags := p.areaByte 4
  { state := .staged
    department := (p.areaByte 0).toNat
    number := p.areaWord 1
    point := (p.areaByte 3).toNat
    policy := if flags.getLsbD 0 then .any else .all
    direct := flags.getLsbD 1
    repeatable := flags.getLsbD 2
    locked := flags.getLsbD 3
    ackWindow := min (p.areaWord 5) 600
    goDisplay := max 1 (min 10 (p.areaByte 7).toNat)
    targets := targets.map fun i => ⟨i, none⟩ }

/-- CUE DEFINE: the checks of R126 in order, and the definition taken (R127). -/
def execCueDefine (t : Time) (r : BitVec 16) (a : BitVec 32) (s : State) : Result :=
  request .cueDefine t r a
    (fun s => withRecord 64 r s fun c =>
      let p := s.port
      if (s.cue c).isSome then refuse s .existing
      else if !p.areaCueInRange then refuse s .badFormat
      else if (p.areaByte 8).toNat = 0 ∨ 12 < (p.areaByte 8).toNat then refuse s .badFormat
      else
        match p.areaTargets with
        | none => refuse s .badFormat
        | some targets =>
          let q := p.areaCue targets
          if hasTwice targets then refuse s .badFormat
          else if !targets.all fun i => (s.station i).configured then refuse s .noRecord
          else if s.labelTaken q.department q.number q.point then refuse s .duplicate
          else done (s.setCue c (some q)) (BitVec.ofNat 16 q.ackWindow ++ natByte q.goDisplay))
    s

/-! ## Standby, GO, cancel, retire (R128 to R138) -/

/-- CUE STANDBY (R128, R129). -/
def execCueStandby (t : Time) (r : BitVec 16) (a : BitVec 32) (s : State) : Result :=
  request .cueStandby t r a
    (fun s => withRecord 64 r s fun c =>
      match s.cue c with
      | none => refuse s .noRecord
      | some q =>
        match q.state with
        | .staged =>
          if s.roomForAll q then done (s.standBy c q) (value3 (natByte (s.lostTargets q)) 0 0)
          else refuse s .queueFull
        | .standby | .ready => refuse s .already
        | .go => refuse s .busy)
    s

/-- CUE GO (R132, R133). -/
def execCueGo (t : Time) (r : BitVec 16) (a : BitVec 32) (s : State) : Result :=
  request .cueGo t r a
    (fun s => withRecord 64 r s fun c =>
      match s.cue c, goOutcome (s.cue c) with
      | some q, .ok unconfirmed => done (s.giveGo c q unconfirmed) (value3 (flagByte unconfirmed) 0 0)
      | _, .error status => refuse s status
      | none, .ok _ => refuse s .noRecord)
    s

/-- CUE CANCEL (R135). -/
def execCueCancel (t : Time) (r : BitVec 16) (a : BitVec 32) (s : State) : Result :=
  request .cueCancel t r a
    (fun s => withRecord 64 r s fun c =>
      match s.cue c with
      | none => refuse s .noRecord
      | some q =>
        match q.state with
        | .staged => refuse s .notStanding
        | .standby | .ready => done (s.cancelCue c q)
        | .go => refuse s .tooLate)
    s

/-- CUE RETIRE (R137). -/
def execCueRetire (t : Time) (r : BitVec 16) (a : BitVec 32) (s : State) : Result :=
  request .cueRetire t r a
    (fun s => withRecord 64 r s fun c =>
      match s.cue c with
      | none => refuse s .noRecord
      | some q =>
        if s.port.showLock && q.locked then refuse s .locked
        else
          match q.state with
          | .standby | .ready => refuse s .active
          | .go => refuse s .busy
          | .staged => done (s.setCue c none))
    s

/-! ## Reading cues (R142, R143) -/

/-- The cue read record of a cue in use (R142, R179). -/
def Cue.record (q : Cue) : List Byte :=
  [q.state.code, natByte q.department, natByte (q.number / 256), natByte q.number, natByte q.point,
    policyByte q.policy q.direct q.repeatable q.locked, natByte (q.ackWindow / 256), natByte q.ackWindow,
    natByte q.goDisplay, natByte q.targets.length]
  ++ (List.range 12).map (fun k => match q.targets[k]? with | some x => natByte x.station.val | none => 0)
  ++ (List.range 12).map (fun k => match q.targets[k]? with | some x => statusByte x.status | none => 0)
  ++ [(if q.unconfirmed then 1 else 0) ||| (if q.noAck then 2 else 0) ||| (if q.ackTimer.isSome then 4 else 0)
      ||| (if q.goTimer.isSome then 8 else 0)]

/-- The cue read record of an entry; a VACANT one reads 0 (R125, R142). -/
def cueRecord : Option Cue → List Byte
  | some q => q.record
  | none => []

/-- CUE READ (R142). -/
def execCueRead (t : Time) (r : BitVec 16) (a : BitVec 32) (s : State) : Result :=
  request .cueRead t r a (fun s => withRecord 64 r s fun c => done (s.loadArea (cueRecord (s.cue c)))) s

/-- The bits of the targets with a status, list position i at bit i (R143, R178). -/
def Cue.statusBits (q : Cue) (status : EntryStatus) : BitVec 12 :=
  (List.range 12).foldl
    (fun acc k =>
      match q.targets[k]? with
      | some x => if x.status = some status then acc ||| (1#12 <<< k) else acc
      | none => acc)
    0

/-- CUE SUMMARY: ACKED in the upper twelve bits, LOST in the lower twelve (R143, R178). -/
def execCueSummary (t : Time) (r : BitVec 16) (a : BitVec 32) (s : State) : Result :=
  request .cueSummary t r a
    (fun s => withRecord 64 r s fun c =>
      match s.cue c with
      | none => refuse s .noRecord
      | some q => done s (q.statusBits .acked ++ q.statusBits .lost))
    s

/-! ## Timers (R131, R134, R152) -/

/-- ACK_TIMER_EXPIRY: the timer stops, and a cue in STANDBY gets its no-ack mark and raises CUE_NOACK (R131). -/
def execAckTimerExpiry (t : Time) (c : CueNo) (s : State) : Result :=
  let s := s.clockTo t
  match s.cue c with
  | some q =>
    match q.ackTimer with
    | some expiry =>
      if s.reached expiry then
        if q.state = .standby then
          .next ((s.setCue c (some { q with ackTimer := none, noAck := true })).raise .cueNoack c.val)
        else .next (s.setCue c (some { q with ackTimer := none }))
      else .next s
    | none => .next s
  | none => .next s

/-- A cue at the end of its GO display: STAGED again if it is repeatable, and else VACANT (R134). -/
def Cue.afterGo (q : Cue) : Option Cue :=
  if q.repeatable then
    some { q with
      state := .staged, goTimer := none, unconfirmed := false, noAck := false
      targets := q.targets.map fun x => { x with status := none } }
  else none

/-- GO_TIMER_END: the cue leaves GO, and CUE_DONE is raised with the unconfirmed flag (R134). -/
def execGoTimerEnd (t : Time) (c : CueNo) (s : State) : Result :=
  let s := s.clockTo t
  match s.cue c with
  | some q =>
    match q.goTimer with
    | some endTime =>
      .next (if s.reached endTime then (s.setCue c q.afterGo).raise .cueDone c.val q.unconfirmed.toNat else s)
    | none => .next s
  | none => .next s

/-- GO_LAMP_EXPIRY: a go-lamp timer that has reached its end time stops (R152). -/
def execGoLampExpiry (t : Time) (i : StationNo) (s : State) : Result :=
  let s := s.clockTo t
  match (s.lamp i).goLamp with
  | some endTime => .next (if s.reached endTime then s.modLamp i fun l => { l with goLamp := none } else s)
  | none => .next s

/-! ## Notices (R173, R174) -/

/-- The state after the pending record of a kind has been taken: copied to the taken record, and clear (R173). -/
def State.takeNotice (s : State) (k : NoticeKind) (p : PendingNotice) : State :=
  { s with notices := { s.notices with
      records := modifyAt s.notices.records k.place fun _ => none
      taken := some ⟨k, p.first, p.extra⟩ } }

/-- Form TAKE: the pending kind of highest priority returned and cleared; with none pending, zeros (R173). -/
def State.noticeTake (s : State) : Answer :=
  match s.notices.best with
  | none => done s
  | some (k, p) => done (s.takeNotice k p) (value3 (natByte k.code) (natByte p.count) (natByte p.latest))

/-- Form DETAIL: the taken record returned (R173). -/
def State.noticeDetail (s : State) : Answer :=
  match s.notices.taken with
  | none => done s
  | some x => done s (value3 (natByte x.kind.code) (natByte x.first) (natByte x.extra))

/-- NOTICE TAKE by its form byte: 0 TAKE, 1 DETAIL, any other refused BAD_FORMAT (R173, R178). -/
def State.noticeByForm (s : State) (form : Byte) : Answer :=
  match form.toNat with
  | 0 => s.noticeTake
  | 1 => s.noticeDetail
  | _ => refuse s .badFormat

/-- NOTICE_TAKE: NOTICE TAKE in form TAKE, or in a form that is refused (R173). -/
def execNoticeTake (t : Time) (r : BitVec 16) (a : BitVec 32) (s : State) : Result :=
  request .noticeTake t r a (fun s => s.noticeByForm (argByte a 0)) s

/-- NOTICE_DETAIL: NOTICE TAKE in form DETAIL (R173). -/
def execNoticeDetail (t : Time) (r : BitVec 16) (a : BitVec 32) (s : State) : Result :=
  request .noticeTake t r a (fun s => s.noticeByForm (argByte a 0)) s

/-- NOTICE MASK writes the nine mask bits and answers the mask in bits 0..8 and the pending set in bits 12..20 (R174,
R178). -/
def execNoticeMask (t : Time) (r : BitVec 16) (a : BitVec 32) (s : State) : Result :=
  request .noticeMask t r a
    (fun s =>
      let mask := a.extractLsb' 0 9
      done { s with notices := { s.notices with mask } }
        (0#3 ++ s.notices.pendingSet ++ 0#3 ++ mask))
    s

end Sys2Proof.Machine
end

