-- ==== Sys2Proof/Machine/NetCommands.lean ====
section
/-! DEFINITION. The meanings of the net requests (R40 to R53) and the level requests (R163 to R167). -/

namespace Sys2Proof.Machine

/-! ## NET OPEN (R40) -/

/-- The name in bytes 0..7 of the transfer area (R40). -/
def Port.areaName (p : Port) : Vector Byte 8 := Vector.ofFn fun i => p.areaByte i.val

/-- The name of an unnamed net: eight 00h bytes (R40). -/
def noName : Vector Byte 8 := Vector.replicate 8 0

/-- Whether another OPEN net holds a name; an unnamed net is no duplicate (R40). -/
def State.nameTaken (s : State) (name : Vector Byte 8) : Bool :=
  name != noName && s.nets.nets.toList.any fun x => x.isOpen && x.name == name

/-- NET OPEN (R40). -/
def execNetOpen (t : Time) (r : BitVec 16) (a : BitVec 32) (s : State) : Result :=
  request .netOpen t r a
    (fun s => withRecord 32 r s fun n =>
      let name := s.port.areaName
      let flag := s.port.areaByte 8
      if (s.net n).isOpen then refuse s .existing
      else if 1 < flag.toNat then refuse s .badFormat
      else if s.nameTaken name then refuse s .duplicate
      else done (s.modNet n fun _ => { isOpen := true, name, locked := flag == 1, members := [] }))
    s

/-! ## Members (R41 to R46) -/

/-- The lowest-numbered free member entry (R39). -/
def State.freeEntry (s : State) : Option EntryNo := (allOf 384).find? fun e => (s.member e).isNone

/-- Why MEMBER ADD of station `i` to net `n` is refused: checks 3 to 7 of R41, in order. -/
def State.addRefusal (s : State) (n : NetNo) (i : StationNo) : Option Status :=
  if !(s.net n).isOpen then some .noRecord
  else if !(s.station i).configured then some .noRecord
  else if !(s.station i).kind.hasAudio then some .notAllowed
  else if (s.entryOf i n).isSome then some .existing
  else if Config.netMembers ≤ (s.net n).members.length then some .full
  else none

/-- Entry `e` put in use and placed at the end of its net's member list; the Planner takes the net path it may form
(R41, R42). -/
def State.addMember (s : State) (e : EntryNo) (m : Member) : State :=
  ((s.modMember e fun _ => some m).modNet m.net fun x => { x with members := x.members ++ [e] }).replan

/-- MEMBER ADD (R41). -/
def execMemberAdd (t : Time) (r : BitVec 16) (a : BitVec 32) (s : State) : Result :=
  request .memberAdd t r a
    (fun s => withRecord 32 r s fun n =>
      match numberBelow 96 (argByte a 0).toNat, rightsOf (argByte a 1) with
      | some i, some rights =>
        match s.addRefusal n i with
        | some status => refuse s status
        | none =>
          match s.freeEntry with
          | none => refuse s .full
          | some e =>
            let level := listenLevelOf (argByte a 2).toInt
            done (s.addMember e ⟨n, i, rights, level⟩) (BitVec.ofNat 16 e.val ++ levelByte (listenCode level))
      | _, _ => refuse s .badFormat)
    s

/-- Whether the show lock protects net `n` (R49). -/
def State.lockHolds (s : State) (n : NetNo) : Bool := s.port.showLock && (s.net n).locked

/-- The rights of entry `e` changed: TALK taken away drops the intent, and LISTEN given or taken away forms or removes
the net path (R44, R45, R75). -/
def State.changeRights (s : State) (e : EntryNo) (m : Member) (rights : Rights) : State :=
  let s := s.flushIf (s.stagesEntry e)
  let s := s.modMember e fun x => x.map fun y => { y with rights }
  let s := if m.rights.canTalk && !rights.canTalk then s.dropIntent m.station m.net else s
  if m.rights.canListen = rights.canListen then s else s.replan

/-- MEMBER CHANGE (R44). -/
def execMemberChange (t : Time) (r : BitVec 16) (a : BitVec 32) (s : State) : Result :=
  request .memberChange t r a
    (fun s => withRecord 384 r s fun e =>
      match s.member e with
      | none => refuse s .noRecord
      | some m =>
        match rightsOf (argByte a 0) with
        | none => refuse s .badFormat
        | some rights => if s.lockHolds m.net then refuse s .locked else done (s.changeRights e m rights))
    s

/-- Entry `e` removed: its rights taken away, then out of its net's member list, then free (R46, steps 2 to 4). -/
def State.removeMember (s : State) (e : EntryNo) : State :=
  match s.member e with
  | none => s
  | some m =>
    let s := s.dropIntent m.station m.net
    let s := s.modNet m.net fun x => { x with members := x.members.filter (· != e) }
    (s.modMember e fun _ => none).replan

/-- MEMBER REMOVE (R46). -/
def execMemberRemove (t : Time) (r : BitVec 16) (a : BitVec 32) (s : State) : Result :=
  request .memberRemove t r a
    (fun s => withRecord 384 r s fun e =>
      match s.member e with
      | none => refuse s .noRecord
      | some m =>
        if s.lockHolds m.net then refuse s .locked
        else done ((s.flushIf (s.stagesEntry e)).removeMember e))
    s

/-! ## NET CLOSE (R47, R48) -/

/-- Whether the buffer holds a listen level of any member entry of net `n` (R50). -/
def State.stagesNet (s : State) (n : NetNo) : Bool := (s.net n).members.any s.stagesEntry

/-- Why NET CLOSE of net `n` is refused (R47). -/
def State.closeRefusal (s : State) (n : NetNo) : Option Status :=
  if !(s.net n).isOpen then some .noRecord else if s.lockHolds n then some .locked else none

/-- The flush and the first `k` removals of a close of net `n`, in join order (R47, steps 1 and 2). -/
def State.closeMembers (s : State) (n : NetNo) (k : Nat) : State :=
  let s := s.flushIf (s.stagesNet n)
  ((s.net n).members.take k).foldl (fun s e => s.removeMember e) s

/-- Net `n` closed: the flush, every member removed, and the record FREE (R47). -/
def State.closeNet (s : State) (n : NetNo) : State :=
  (s.closeMembers n (s.net n).members.length).modNet n fun _ => {}

/-- NET CLOSE processed whole, or to its end where removals have been made (R47). -/
def closeWhole (t : Time) (r : BitVec 16) (a : BitVec 32) (s : State) : Result :=
  request .netClose t r a
    (fun s => withRecord 32 r s fun n =>
      match s.closeRefusal n with
      | some status => refuse s status
      | none => done (s.closeNet n))
    s

/-- NET CLOSE taken as far as its first `k` removals from here: the request stays in process, so that key presses, polls
and audio frames land between one removal and the next (R48; log entry 3). A request that is refused, or that the port
does not take, has no such part. -/
def closePart (t : Time) (r : BitVec 16) (a : BitVec 32) (k : Nat) (s : State) : Result :=
  let q : Request := ⟨.netClose, r, a⟩
  let u := s.clockTo t
  match numberBelow 32 r.toNat with
  | some n =>
    if u.accepts q && (u.closeRefusal n).isNone then .next ((u.closeMembers n k).holdRequest q) else closeWhole t r a s
  | none => closeWhole t r a s

/-- NET CLOSE (R47, R48). -/
def execNetClose (t : Time) (r : BitVec 16) (turn : CloseTurn) (s : State) : Result :=
  match turn.removals with
  | some k => closePart t r turn.argument k s
  | none => closeWhole t r turn.argument s

/-! ## NET READ (R52, R53) -/

/-- The member entry at position `k` of the member list of net `n`, with its number (R52). -/
def State.memberAt (s : State) (n : NetNo) (k : Nat) : Option (EntryNo × Member) :=
  match (s.net n).members[k]? with
  | some e => (s.member e).map fun m => (e, m)
  | none => none

/-- The four bytes of one position of NET READ (R52, R179). -/
def memberRecord : Option (EntryNo × Member) → List Byte
  | some (e, m) => [natByte m.station.val, m.rights.code, levelByte (listenCode m.level), natByte e.val]
  | none => [0xFF, 0xFF, 0xFF, 0xFF]

/-- The page of net `n` (R52). -/
def State.netPage (s : State) (n : NetNo) (page : Nat) : List Byte :=
  (List.range 12).flatMap fun k => memberRecord (s.memberAt n (12 * page + k))

/-- The reply value of NET READ (R53, R178). -/
def State.netValue (s : State) (n : NetNo) (page : Nat) : BitVec 24 :=
  let x := s.net n
  let high := (List.range 12).foldl
    (fun acc k =>
      match s.memberAt n (12 * page + k) with
      | some (e, _) => if 256 ≤ e.val then acc + 2 ^ k else acc
      | none => acc)
    0
  BitVec.ofNat 24 (x.members.length * 2 ^ 18 + x.isOpen.toNat * 2 ^ 17 + x.locked.toNat * 2 ^ 16 + high)

/-- NET READ (R52). -/
def execNetRead (t : Time) (r : BitVec 16) (a : BitVec 32) (s : State) : Result :=
  request .netRead t r a
    (fun s => withRecord 32 r s fun n =>
      let page := (argByte a 0).toNat
      if 3 < page then refuse s .badFormat
      else
        let s := s.flushIf (s.stagesNet n)
        done (s.loadArea (s.netPage n page)) (s.netValue n page))
    s

/-! ## Level writes (R163 to R167) -/

/-- A level write of values at address `address` and those that follow: the checks of R164, the clamping, the staging of
R165, and the first value as taken. -/
def State.writeLevels (s : State) (address : Nat) (values : List Int) : Answer :=
  match numberBelow 96 (address / 8) with
  | none => refuse s .badRecord
  | some g =>
    match (List.range values.length).mapM fun k => levelAddressOf (address + k) with
    | none => refuse s .badRecord
    | some names =>
      if names.all s.levelPresent then
        let taken := (names.zip values).map fun nv => nv.1.field.take nv.2
        done (s.stage g (address % 8) taken) (value3 (levelByte (taken.headD 0)) 0 0)
      else refuse s .noRecord

/-- LEVEL ONE (R164). -/
def execLevelOne (t : Time) (r : BitVec 16) (a : BitVec 32) (s : State) : Result :=
  request .levelOne t r a (fun s => s.writeLevels r.toNat [(argByte a 0).toInt]) s

/-- LEVEL FOUR (R164). -/
def execLevelFour (t : Time) (r : BitVec 16) (a : BitVec 32) (s : State) : Result :=
  request .levelFour t r a
    (fun s =>
      if 767 < r.toNat then refuse s .badRecord
      else if r.toNat % 4 ≠ 0 then refuse s .misaligned
      else s.writeLevels r.toNat ((List.range 4).map fun k => (argByte a k).toInt))
    s

/-- LEVEL FLUSH applies the staging buffer and answers the number of values applied (R166). -/
def execLevelFlush (t : Time) (r : BitVec 16) (a : BitVec 32) (s : State) : Result :=
  request .levelFlush t r a (fun s => done s.flush (value3 (natByte s.stagedCount) 0 0)) s

end Sys2Proof.Machine
end

