-- ==== Sys2Proof/Machine/PortCommands.lean ====
section
/-! DEFINITION. The meanings of the resets, the transactions of the command port, the port requests and the show lock
(R156 to R162, R168 to R170). -/

namespace Sys2Proof.Machine

/-! ## Resets and start-up (R169, R170) -/

/-- POWER_ON: the transaction and the request in process are abandoned, every block is reset, and start-up begins with
LOCKMODE sampled (R168 to R170). -/
def execPowerOn (t : Time) (lockmode : Bool) (s : State) : Result :=
  .next ((s.clockTo t).resetTo (.starting .power) lockmode)

/-- PIN_RESET: the part is reset and stays in reset while RESET_N is low; LOCKMODE is sampled at the release (R169,
R170). -/
def execPinReset (t : Time) (s : State) : Result :=
  .next ((s.clockTo t).resetTo .held s.port.lockmode)

/-- PIN_RESET_RELEASE: start-up begins, with LOCKMODE sampled and the tables cleared (R169, R170). -/
def execPinResetRelease (t : Time) (lockmode : Bool) (s : State) : Result :=
  let s := s.clockTo t
  .next (if s.phase = .held then s.resetTo (.starting .pin) lockmode else s)

/-- The end of start-up after a reset of kind `k`: the slot becomes NONE, the audio clock's last edge is now, and
RESTARTED becomes pending (R122, R170, R171). -/
def State.endStartup (s : State) (k : ResetKind) : State :=
  State.raise { s with
    phase := .running
    port := { s.port with reply := .none }
    mix := { s.mix with clockPresent := true, lastEdge := s.now } } .restarted k.code

/-- STARTUP_END (R170). -/
def execStartupEnd (t : Time) (s : State) : Result :=
  let s := s.clockTo t
  match s.phase with
  | .starting k => .next (s.endStartup k)
  | .held | .running => .next s

/-! ## Transactions (R156, R158 to R160) -/

/-- The state with the port's transaction at another place. -/
def State.setTransaction (s : State) (x : Transaction) : State :=
  { s with port := { s.port with transaction := x } }

/-- CP_SELECT_FALL: a transaction begins and latches the slot's content; while RESET_N is low no bits are taken, and the
port waits for select to go high (R156, R158, R169). -/
def execCpSelectFall (t : Time) (s : State) : Result :=
  let s := s.clockTo t
  if s.port.transaction ≠ .released then .next s
  else if s.phase = .held then .next (s.setTransaction .awaitingRelease)
  else .next { s with port := { s.port with transaction := .receiving, latched := s.port.reply } }

/-- SHORT_FRAME: the frame is discarded, the slot is left as it stands, and select is released (R160). -/
def execShortFrame (t : Time) (s : State) : Result :=
  let s := s.clockTo t
  match s.port.transaction with
  | .receiving | .awaitingRelease => .next (s.setTransaction .released)
  | .released | .completed | .stalled => .next s

/-- FRAME_STALL: the frame is discarded, and no further bits are taken until select is released (R160). -/
def execFrameStall (t : Time) (s : State) : Result :=
  let s := s.clockTo t
  match s.port.transaction with
  | .receiving => .next (s.setTransaction .stalled)
  | .released | .completed | .stalled | .awaitingRelease => .next s

/-- TRANSACTION_END: select is released after the frame completed, after a stall, or after a reset (R156). -/
def execTransactionEnd (t : Time) (s : State) : Result :=
  let s := s.clockTo t
  match s.port.transaction with
  | .completed | .stalled | .awaitingRelease => .next (s.setTransaction .released)
  | .released | .receiving => .next s

/-- A complete frame handled by the first row of R159 that applies. A request whose kind code names none is answered
BAD_KIND (R161); any other is in process until its own command completes it. -/
def Port.takeFrame (p : Port) (frame : BitVec 64) : Port :=
  match p.latched with
  | .inProgress _ _ | .starting => p
  | .none | .completed _ _ _ _ | .checkFailed _ _ =>
    if !frameChecks frame then { p with reply := .checkFailed (frameKind frame) (frameRecord frame) }
    else
      match frameRequest frame with
      | none => { p with reply := .completed .badKind (frameKind frame) (frameRecord frame) 0 }
      | some q => { p with reply := .inProgress (frameKind frame) (frameRecord frame), inProcess := some q }

/-- FRAME_COMPLETE: the 64th clock edge of a transaction (R156, R159). Edges outside a transaction or after its 64th
bit, and bits after a stall, take nothing (R156, R160). -/
def execFrameComplete (t : Time) (frame : BitVec 64) (s : State) : Result :=
  let s := s.clockTo t
  match s.port.transaction with
  | .receiving => .next { s with port := { s.port.takeFrame frame with transaction := .completed } }
  | .released | .completed | .stalled | .awaitingRelease => .next s

/-! ## Port requests (R161, R162, R169) -/

/-- NOP does nothing and is answered DONE with value 0 (R161). -/
def execNop (t : Time) (r : BitVec 16) (a : BitVec 32) (s : State) : Result :=
  request .nop t r a (fun s => done s) s

/-- The state with the transfer-area cursor set. -/
def State.setCursor (s : State) (c : Nat) : State := { s with port := { s.port with cursor := c } }

/-- SEEK sets the cursor, clamped to 0..47, and answers it (R162). -/
def execSeek (t : Time) (r : BitVec 16) (a : BitVec 32) (s : State) : Result :=
  request .seek t r a
    (fun s =>
      let c := min (argByte a 0).toNat 47
      done (s.setCursor c) (value3 (natByte c) 0 0))
    s

/-- The port after PUT: four bytes written at the cursor, those at 48 or above dropped, and the cursor advanced to at
most 48 (R162). -/
def Port.put (p : Port) (a : BitVec 32) : Port :=
  let written := (List.range 4).foldl (fun q i => q.writeByte (p.cursor + i) (argByte a i)) p
  { written with cursor := min (p.cursor + 4) 48 }

/-- PUT (R162). -/
def execPut (t : Time) (r : BitVec 16) (a : BitVec 32) (s : State) : Result :=
  request .put t r a
    (fun s =>
      let p := s.port.put a
      done { s with port := p } (value3 (natByte p.cursor) 0 0))
    s

/-- GET returns the three bytes at the cursor and advances it by three, to at most 48 (R162). -/
def execGet (t : Time) (r : BitVec 16) (a : BitVec 32) (s : State) : Result :=
  request .get t r a
    (fun s =>
      let c := s.port.cursor
      done (s.setCursor (min (c + 3) 48)) (value3 (s.port.areaByte c) (s.port.areaByte (c + 1)) (s.port.areaByte (c + 2))))
    s

/-- RESTART: once taken, the staging buffer is flushed and the part is reset; its reply is never sent (R166, R169). -/
def execRestart (t : Time) (r : BitVec 16) (a : BitVec 32) (lockmode : Bool) (s : State) : Result :=
  let s := s.clockTo t
  .next (if s.accepts ⟨.restart, r, a⟩ then s.flush.resetTo (.starting .command) lockmode else s)

/-! ## The show lock (R168) -/

/-- The reply value of both lock requests: the lock state and the LOCKMODE value (R168). -/
def lockValue (engaged lockmode : Bool) : BitVec 24 := value3 (flagByte engaged) (flagByte lockmode) 0

/-- The state with the show lock engaged or disengaged. -/
def State.setShowLock (s : State) (b : Bool) : State := { s with port := { s.port with showLock := b } }

/-- SHOW LOCK engages the lock (R168). -/
def execShowLock (t : Time) (r : BitVec 16) (a : BitVec 32) (s : State) : Result :=
  request .showLock t r a (fun s => done (s.setShowLock true) (lockValue true s.port.lockmode)) s

/-- SHOW UNLOCK disengages the lock with LOCKMODE 0 and is refused FIXED with LOCKMODE 1 (R168). -/
def execShowUnlock (t : Time) (r : BitVec 16) (a : BitVec 32) (s : State) : Result :=
  request .showUnlock t r a
    (fun s => if s.port.lockmode then refuse s .fixed else done (s.setShowLock false) (lockValue false false)) s

end Sys2Proof.Machine
end

