-- ==== Sys2Proof/Machine/StationCommands.lean ====
section
/-! DEFINITION. The meanings of the station requests (R4 to R14) and the bus requests (R19, R28, R33). -/

namespace Sys2Proof.Machine

/-! ## STATION SET (R4 to R6) -/

/-- An unconfigured station configured: kind and class set, every other field at its default, and the station taken up
by its bus (R2, R4). -/
def State.configure (s : State) (i : StationNo) (k : Kind) (c : PriorityClass) : State :=
  (s.modStation i fun _ => { configured := true, kind := k, cls := c }).takeUp i

/-- Whether a key map holds a binding that only class STAGE_MANAGER may hold (R12). -/
def Binding.needsManager : Binding → Bool
  | .allCall | .standby _ | .go _ => true
  | .none | .talk _ _ | .call _ | .answer | .ack => false

/-- Whether a binding may stand in the key map of a CUEBOX (R12). -/
def Binding.cueboxMay : Binding → Bool
  | .none | .ack => true
  | .talk _ _ | .call _ | .answer | .allCall | .standby _ | .go _ => false

/-- The bindings of a key map, by key number. -/
def Station.bindings (r : Station) : List Binding := r.keys.toList.map Key.binding

/-- Whether a station is a member of any net. -/
def State.isMember (s : State) (i : StationNo) : Bool :=
  s.nets.pool.toList.any fun m => match m with | some x => x.station == i | none => false

/-- Why STATION SET on a configured station is refused: checks 3 to 6 of R5, in order. -/
def State.reclassifyRefusal (s : State) (i : StationNo) (k : Kind) (c : PriorityClass) : Option Status :=
  let r := s.station i
  if k ≠ r.kind ∧ (s.busRec (busOf i)).running = true then some .busy
  else if c ≠ .stageManager ∧ r.bindings.any Binding.needsManager = true then some .referenced
  else if k = .cuebox ∧ r.bindings.all Binding.cueboxMay = false then some .referenced
  else if k = .cuebox ∧ s.isMember i = true then some .referenced
  else none

/-- The kind and class of a configured station changed. A CUEBOX has its gate enable off and its gate CLOSED (log entry
15), and its microphone is no longer measured (R120). The class change is handed to the Planner (R6, R95). -/
def State.reclassify (s : State) (i : StationNo) (k : Kind) (c : PriorityClass) : State :=
  let s := s.flushIf (s.stagesStation i)
  let s := s.modStation i fun r => { r with kind := k, cls := c, gateEnable := r.gateEnable && k != .cuebox }
  let s := if k = .cuebox then
      (s.modGate i fun g => { g with isOpen := false }).modChannel i fun x => { x with peak := 0, ended := none }
    else s
  s.replan

/-- STATION SET (R4, R5). -/
def execStationSet (t : Time) (r : BitVec 16) (a : BitVec 32) (s : State) : Result :=
  request .stationSet t r a
    (fun s => withRecord 96 r s fun i =>
      match kindOf (argByte a 0), classOf (argByte a 1) with
      | some k, some c =>
        if (s.station i).configured then
          match s.reclassifyRefusal i k c with
          | some status => refuse s status
          | none => done (s.reclassify i k c)
        else done (s.configure i k c)
      | _, _ => refuse s .badFormat)
    s

/-! ## STATION CLEAR (R7) -/

/-- Whether a station is in the target list of a cue that is not VACANT (R7). -/
def State.isTarget (s : State) (i : StationNo) : Bool :=
  s.cues.toList.any fun c => match c with | some q => q.stations.contains i | none => false

/-- Whether other records refer to a station, so that it cannot be cleared (R7). -/
def State.referenced (s : State) (i : StationNo) : Bool := s.isMember i || s.isTarget i || (s.callOf i).isSome

/-- Every key of a station that is not NONE is given NONE, in ascending key number (R14). -/
def State.unbindAll (s : State) (i : StationNo) : State :=
  (allOf 8).foldl (fun s k => if (s.key i k).binding = .none then s else s.rebind i k .none) s

/-- A station cleared, in the order of R7: the flush, the poll cycle and the loss effects, and the record. With it go its
gate (R68), its release-ignore marks (R62), its go-lamp timer (R152) and its block peak (R120). -/
def State.clearStation (s : State) (i : StationNo) : State :=
  let s := s.flushIf (s.stagesStation i)
  let s := ((s.unpoll i).discardSlot i).modLink i fun _ => {}
  let s := (s.unbindAll i).modStation i fun _ => {}
  let s := { s with talk := { s.talk with
      gates := modifyAt s.talk.gates i fun _ => {}
      releaseIgnore := modifyAt s.talk.releaseIgnore i fun _ => Vector.replicate 8 false } }
  let s := s.modLamp i fun l => { l with goLamp := none }
  s.modChannel i fun x => { x with peak := 0, ended := none }

/-- STATION CLEAR (R7). -/
def execStationClear (t : Time) (r : BitVec 16) (a : BitVec 32) (s : State) : Result :=
  request .stationClear t r a
    (fun s => withRecord 96 r s fun i =>
      if !(s.station i).configured then refuse s .noRecord
      else if s.referenced i then refuse s .referenced
      else done (s.clearStation i))
    s

/-! ## STATION READ (R8) -/

/-- The deny marks of a station, key k at bit k (R179). -/
def Station.denyByte (r : Station) : Byte :=
  (allOf 8).foldl (fun acc k => if (r.keys.get k).deny.isSome then acc ||| (1#8 <<< k.val) else acc) 0

/-- The station read record (R8, R179). -/
def State.stationRecord (s : State) (i : StationNo) : List Byte :=
  let r := s.station i
  [flagByte r.configured, r.kind.code, r.cls.code, levelByte r.trim, levelByte r.master, levelByte r.dim,
    levelByte r.duck, flagByte r.gateEnable, levelByte r.gateOpen, levelByte r.gateClose, natByte r.gateHold,
    flagByte (s.gate i).isOpen, (s.link i).state.code, (s.link i).keys, r.denyByte]
  ++ (allOf 8).flatMap fun k =>
    let b := (r.keys.get k).binding.bytes
    [b.kind, b.param, b.mode]

/-- STATION READ (R8). -/
def execStationRead (t : Time) (r : BitVec 16) (a : BitVec 32) (s : State) : Result :=
  request .stationRead t r a
    (fun s => withRecord 96 r s fun i =>
      let s := s.flushIf (s.stagesStation i)
      done (s.loadArea (s.stationRecord i)))
    s

/-! ## KEYMAP SET (R12 to R14) -/

/-- The forms of KEYMAP SET (R13). -/
inductive KeymapForm where
  | lowKeep | highKeep | lowClear
deriving DecidableEq, Repr

/-- The form of an argument byte (R178). -/
def keymapFormOf (b : Byte) : Option KeymapForm :=
  match b.toNat with
  | 0 => some .lowKeep
  | 1 => some .highKeep
  | 2 => some .lowClear
  | _ => none

/-- Key binding entry `e` of the transfer area, 0..3 (R13, R179). -/
def Port.entryBinding (p : Port) (e : Nat) : Option Binding :=
  bindingOf ⟨p.areaByte (3 * e), p.areaByte (3 * e + 1), p.areaByte (3 * e + 2)⟩

/-- The whole map as it would stand after the write, by key number; none for an entry that is BAD_FORMAT by itself
(R13). -/
def State.mapAfter (s : State) (i : StationNo) (form : KeymapForm) : List (Option Binding) :=
  let entries := (List.range 4).map s.port.entryBinding
  let kept (from_ : Nat) := (((s.station i).bindings.drop from_).take 4).map some
  match form with
  | .lowKeep => entries ++ kept 4
  | .highKeep => kept 0 ++ entries
  | .lowClear => entries ++ List.replicate 4 (some Binding.none)

/-- The nets of the TALK bindings of a map. -/
def talkNets (map : List Binding) : List NetNo :=
  map.filterMap fun b => match b with | .talk n _ => some n | _ => none

/-- Whether a map is BAD_FORMAT as a whole: a CALL to the station itself, or two TALK bindings to one net (R12). -/
def mapMalformed (i : StationNo) (map : List Binding) : Bool :=
  map.contains (.call i) || hasTwice (talkNets map)

/-- Whether a map holds a binding that the station's class or kind may not have (R12). -/
def mapNotAllowed (r : Station) (map : List Binding) : Bool :=
  (r.cls != .stageManager && map.any Binding.needsManager) || (r.kind == .cuebox && !map.all Binding.cueboxMay)

/-- The keys whose binding changes are rebound, in ascending key number (R13, R14). -/
def State.writeMap (s : State) (i : StationNo) (map : List Binding) : State :=
  (allOf 8).foldl
    (fun s k =>
      let b := map.getD k.val .none
      if (s.key i k).binding = b then s else s.rebind i k b)
    s

/-- KEYMAP SET (R13). -/
def execKeymapSet (t : Time) (r : BitVec 16) (a : BitVec 32) (s : State) : Result :=
  request .keymapSet t r a
    (fun s => withRecord 96 r s fun i =>
      if !(s.station i).configured then refuse s .noRecord
      else
        match keymapFormOf (argByte a 0) with
        | none => refuse s .badFormat
        | some form =>
          match (s.mapAfter i form).mapM id with
          | none => refuse s .badFormat
          | some map =>
            if mapMalformed i map then refuse s .badFormat
            else if mapNotAllowed (s.station i) map then refuse s .notAllowed
            else done (s.writeMap i map))
    s

/-! ## GATE SET (R10, R11) -/

/-- The gate of station `i` taken over from an enable value to another (R11). When the enable goes off the hold count
stays as it was (log entry 22). -/
def State.switchGate (s : State) (i : StationNo) (before after : Bool) : State :=
  match before, after with
  | false, true => (s.modGate i fun _ => { isOpen := false, hold := 0 }).evaluateAll i
  | true, false => (s.modGate i fun g => { g with isOpen := false }).evaluateAll i
  | _, _ => s

/-- The gate fields of station `i` written, as clamped, and the new settings handed to the Talk Unit (R10, R11). -/
def State.setGate (s : State) (i : StationNo) (enable : Bool) (open_ close : Int) (hold : Nat) : State :=
  let before := (s.station i).gateEnable
  let s := s.modStation i fun r => { r with gateEnable := enable, gateOpen := open_, gateClose := close, gateHold := hold }
  s.switchGate i before enable

/-- GATE SET (R10). -/
def execGateSet (t : Time) (r : BitVec 16) (a : BitVec 32) (s : State) : Result :=
  request .gateSet t r a
    (fun s => withRecord 96 r s fun i =>
      if !(s.station i).configured then refuse s .noRecord
      else if !(s.station i).kind.hasAudio then refuse s .notAllowed
      else if 1 < (argByte a 0).toNat then refuse s .badFormat
      else
        let open_ := clamp (-120) (-6) (argByte a 1).toInt
        let close := clamp (-128) (open_ - 1) (argByte a 2).toInt
        let hold := max 1 (min 200 (argByte a 3).toNat)
        let s := s.flushIf (s.stagesStation i)
        done (s.setGate i (argByte a 0 == 1) open_ close hold) (value3 (levelByte open_) (levelByte close) (natByte hold)))
    s

/-! ## Buses (R19, R28, R33) -/

/-- BUS CONFIGURE (R19). -/
def execBusConfigure (t : Time) (r : BitVec 16) (a : BitVec 32) (s : State) : Result :=
  request .busConfigure t r a
    (fun s => withRecord 8 r s fun b =>
      let rate := (argByte a 0).toNat
      if (s.busRec b).running then refuse s .busy
      else if rate < 2 ∨ 6 < rate then refuse s .badFormat
      else
        match parityOf (argByte a 1) with
        | none => refuse s .badFormat
        | some parity => done (s.modBus b fun x => { x with rate, parity }))
    s

/-- BUS START (R28). -/
def execBusStart (t : Time) (r : BitVec 16) (a : BitVec 32) (s : State) : Result :=
  request .busStart t r a
    (fun s => withRecord 8 r s fun b =>
      if (s.busRec b).running then refuse s .already else done (s.startBus b))
    s

/-- BUS STOP (R33). -/
def execBusStop (t : Time) (r : BitVec 16) (a : BitVec 32) (s : State) : Result :=
  request .busStop t r a
    (fun s => withRecord 8 r s fun b =>
      if !(s.busRec b).running then refuse s .already else done (s.stopBus b))
    s

end Sys2Proof.Machine
end

