-- ==== Sys2Proof/Machine/TalkCommands.lean ====
section
/-! DEFINITION. The meanings of the talk, call and plan requests and of the expiries of the Talk Unit, the Call Unit and
the Station Table (R16, R65 to R67, R78, R82, R84, R88, R108). -/

namespace Sys2Proof.Machine

/-! ## Remote talk (R65 to R67) -/

/-- Why REMOTE TALK of station `i` in net `n` is refused: checks 3 to 6 of R65, in order. -/
def State.remoteRefusal (s : State) (i : StationNo) (n : NetNo) : Option Status :=
  if !(s.station i).configured || !(s.net n).isOpen then some .noRecord
  else if !s.mayTalk i n then some .notAllowed
  else if !s.isUp i then some .busy
  else if (s.intent i n).isNone && !s.intentFree then some .full
  else none

/-- The hold of REMOTE TALK as taken, in seconds (R65). -/
def remoteHold (seconds_ : Nat) : Nat := max 1 (min 600 seconds_)

/-- The REMOTE origin of a pair added, or renewed: a renewal replaces the expiry time alone (R65). -/
def State.setRemote (s : State) (i : StationNo) (n : NetNo) (expiry : Time) : State :=
  match s.intent i n with
  | some x =>
    if x.remote.isSome then s.putIntent { x with remote := some expiry }
    else s.addOrigin i n fun y => { y with remote := some expiry }
  | none => s.addOrigin i n fun y => { y with remote := some expiry }

/-- Whether station `i` is a talker in net `n` (R55, R57). -/
def State.talks (s : State) (i : StationNo) (n : NetNo) : Bool :=
  match s.intent i n with
  | some x => x.arrival.isSome
  | none => false

/-- REMOTE TALK (R65). -/
def execRemoteTalk (t : Time) (r : BitVec 16) (a : BitVec 32) (s : State) : Result :=
  request .remoteTalk t r a
    (fun s => withRecord 96 r s fun i =>
      match numberBelow 32 (argByte a 0).toNat with
      | none => refuse s .badFormat
      | some n =>
        match s.remoteRefusal i n with
        | some status => refuse s status
        | none =>
          let hold := remoteHold ((argByte a 1).toNat * 256 + (argByte a 2).toNat)
          let s := s.setRemote i n (s.now + seconds hold)
          done s (BitVec.ofNat 16 hold ++ flagByte (s.talks i n)))
    s

/-- The REMOTE origin of an intent removed: it stays with a KEY origin and is freed otherwise (R66, R67). -/
def State.removeRemote (s : State) (x : Intent) : State := s.setOrigins x x.key none

/-- REMOTE RELEASE (R67). -/
def execRemoteRelease (t : Time) (r : BitVec 16) (a : BitVec 32) (s : State) : Result :=
  request .remoteRelease t r a
    (fun s => withRecord 96 r s fun i =>
      match numberBelow 32 (argByte a 0).toNat with
      | none => refuse s .badFormat
      | some n =>
        match s.intent i n with
        | none => refuse s .noRecord
        | some x => if x.remote.isNone then refuse s .noRecord else done (s.removeRemote x))
    s

/-- REMOTE_EXPIRY: a REMOTE origin that has reached its expiry time is removed, and REMOTE_EXPIRED is raised (R66). -/
def execRemoteExpiry (t : Time) (i : StationNo) (n : NetNo) (s : State) : Result :=
  let s := s.clockTo t
  match s.intent i n with
  | some x =>
    match x.remote with
    | some expiry => .next (if s.reached expiry then (s.removeRemote x).raise .remoteExpired i.val else s)
    | none => .next s
  | none => .next s

/-- DENY_MARK_EXPIRY: a deny mark that has reached its expiry time is removed (R16). -/
def execDenyMarkExpiry (t : Time) (i : StationNo) (k : KeyNo) (s : State) : Result :=
  let s := s.clockTo t
  match (s.key i k).deny with
  | some expiry => .next (if s.reached expiry then s.modKey i k fun x => { x with deny := none } else s)
  | none => .next s

/-! ## Calls (R78, R82, R84, R88) -/

/-- Why CALL PLACE from `i` to `x` is refused: checks 3 to 6 of R78, in order. -/
def State.placeRefusal (s : State) (i x : StationNo) : Option Status :=
  if !(s.station i).configured || !(s.station x).configured then some .noRecord
  else if !(s.station i).kind.hasAudio || !(s.station x).kind.hasAudio then some .notAllowed
  else if !s.isUp i || !s.isUp x then some .busy
  else if (s.callOf i).isSome || (s.callOf x).isSome then some .busy
  else none

/-- CALL PLACE (R78). -/
def execCallPlace (t : Time) (r : BitVec 16) (a : BitVec 32) (s : State) : Result :=
  request .callPlace t r a
    (fun s => withRecord 96 r s fun i =>
      match numberBelow 96 (argByte a 0).toNat with
      | none => refuse s .badFormat
      | some x =>
        if x = i then refuse s .badFormat
        else
          match s.placeRefusal i x with
          | some status => refuse s status
          | none =>
            match s.freeCall with
            | none => refuse s .full
            | some c => done (s.placeCall c i x .host) (value3 (natByte c.val) 0 0))
    s

/-- CALL END (R84). -/
def execCallEnd (t : Time) (r : BitVec 16) (a : BitVec 32) (s : State) : Result :=
  request .callEnd t r a
    (fun s => withRecord 24 r s fun c =>
      match s.call c with
      | none => refuse s .noRecord
      | some e =>
        if e.caller.val = (argByte a 0).toNat ∧ e.callee.val = (argByte a 1).toNat then done (s.endCall c e .host)
        else refuse s .noRecord)
    s

/-- The reply value of CALL READ (R88, R178). -/
def callValue : Option Call → BitVec 24
  | none => value3 0xFF 0xFF 0
  | some e =>
    value3 (natByte e.caller.val) (natByte e.callee.val)
      ((if e.isRinging then 1 else 2) ||| (if e.origin = .host then 4 else 0))

/-- CALL READ (R88). -/
def execCallRead (t : Time) (r : BitVec 16) (a : BitVec 32) (s : State) : Result :=
  request .callRead t r a (fun s => withRecord 24 r s fun c => done s (callValue (s.call c))) s

/-- RING_EXPIRY: a RINGING call that has reached its ring expiry ends with reason NO_ANSWER (R82). -/
def execRingExpiry (t : Time) (c : CallNo) (s : State) : Result :=
  let s := s.clockTo t
  match s.call c with
  | some e =>
    match e.state with
    | .ringing expiry => .next (if s.reached expiry then s.endCall c e .noAnswer else s)
    | .connected _ => .next s
  | none => .next s

/-! ## PLAN READ (R108) -/

/-- Whether the buffer holds a level that enters a path level of the plan of station `i` (R108). -/
def State.stagesPlan (s : State) (i : StationNo) : Bool :=
  s.stages (480 + i.val) || s.stages (576 + i.val) || s.stages (672 + i.val)
  || (allOf 384).any (fun e =>
      match s.member e with
      | some m => m.station == i && s.stagesEntry e
      | none => false)
  || (s.plan i).candidates.any fun c => s.stages (384 + c.station.val)

/-- The four bytes of a slot in the plan read record (R108, R179). -/
def Slot.record (x : Slot) : List Byte :=
  let code : Byte := match x.use with
    | .free => 0
    | .active _ => 1
    | .draining _ _ => 2
  let next := match x.use with
    | .draining _ n => n
    | _ => none
  [code, stationByte x.use.occupant, stationByte next, natByte (x.target / 256)]

/-- The plan read record (R108, R179). -/
def Plan.record (p : Plan) : List Byte :=
  (allOf 8).flatMap (fun k => (p.slots.get k).record)
  ++ [natByte p.waiting.length]
  ++ (List.range 8).map fun k => stationByte p.waiting[k]?

/-- PLAN READ (R108). -/
def execPlanRead (t : Time) (r : BitVec 16) (a : BitVec 32) (s : State) : Result :=
  request .planRead t r a
    (fun s => withRecord 96 r s fun i =>
      let s := s.flushIf (s.stagesPlan i)
      let p := s.plan i
      done (s.loadArea p.record)
        (value3 (flagByte (s.planInUse i)) (natByte p.holders.length) (natByte p.waiting.length)))
    s

end Sys2Proof.Machine
end

