-- ==== Sys2Proof/Machine/Dispatch.lean ====
section
/-! DEFINITION. The dispatch of a command to its meaning, one arm for each row of spec/opcode_table.json. -/

namespace Sys2Proof.Machine

def exec (i : Instr) (s : State) : Host.Outcome State Fault Refusal :=
  match i with
  | .powerOn t m => Sys2Proof.Machine.execPowerOn t m s
  | .pinReset t => Sys2Proof.Machine.execPinReset t s
  | .pinResetRelease t m => Sys2Proof.Machine.execPinResetRelease t m s
  | .startupEnd t => Sys2Proof.Machine.execStartupEnd t s
  | .cpSelectFall t => Sys2Proof.Machine.execCpSelectFall t s
  | .shortFrame t => Sys2Proof.Machine.execShortFrame t s
  | .frameStall t => Sys2Proof.Machine.execFrameStall t s
  | .frameComplete t f => Sys2Proof.Machine.execFrameComplete t f s
  | .nop t r a => Sys2Proof.Machine.execNop t r a s
  | .seek t r a => Sys2Proof.Machine.execSeek t r a s
  | .put t r a => Sys2Proof.Machine.execPut t r a s
  | .get t r a => Sys2Proof.Machine.execGet t r a s
  | .restart t r a m => Sys2Proof.Machine.execRestart t r a m s
  | .stationSet t r a => Sys2Proof.Machine.execStationSet t r a s
  | .stationClear t r a => Sys2Proof.Machine.execStationClear t r a s
  | .stationRead t r a => Sys2Proof.Machine.execStationRead t r a s
  | .keymapSet t r a => Sys2Proof.Machine.execKeymapSet t r a s
  | .gateSet t r a => Sys2Proof.Machine.execGateSet t r a s
  | .busConfigure t r a => Sys2Proof.Machine.execBusConfigure t r a s
  | .busStart t r a => Sys2Proof.Machine.execBusStart t r a s
  | .busStop t r a => Sys2Proof.Machine.execBusStop t r a s
  | .netOpen t r a => Sys2Proof.Machine.execNetOpen t r a s
  | .netClose t r a => Sys2Proof.Machine.execNetClose t r a s
  | .memberAdd t r a => Sys2Proof.Machine.execMemberAdd t r a s
  | .memberChange t r a => Sys2Proof.Machine.execMemberChange t r a s
  | .memberRemove t r a => Sys2Proof.Machine.execMemberRemove t r a s
  | .netRead t r a => Sys2Proof.Machine.execNetRead t r a s
  | .levelOne t r a => Sys2Proof.Machine.execLevelOne t r a s
  | .levelFour t r a => Sys2Proof.Machine.execLevelFour t r a s
  | .levelFlush t r a => Sys2Proof.Machine.execLevelFlush t r a s
  | .remoteTalk t r a => Sys2Proof.Machine.execRemoteTalk t r a s
  | .remoteRelease t r a => Sys2Proof.Machine.execRemoteRelease t r a s
  | .callPlace t r a => Sys2Proof.Machine.execCallPlace t r a s
  | .callEnd t r a => Sys2Proof.Machine.execCallEnd t r a s
  | .callRead t r a => Sys2Proof.Machine.execCallRead t r a s
  | .planRead t r a => Sys2Proof.Machine.execPlanRead t r a s
  | .cueDefine t r a => Sys2Proof.Machine.execCueDefine t r a s
  | .cueStandby t r a => Sys2Proof.Machine.execCueStandby t r a s
  | .cueGo t r a => Sys2Proof.Machine.execCueGo t r a s
  | .cueCancel t r a => Sys2Proof.Machine.execCueCancel t r a s
  | .cueRetire t r a => Sys2Proof.Machine.execCueRetire t r a s
  | .cueRead t r a => Sys2Proof.Machine.execCueRead t r a s
  | .cueSummary t r a => Sys2Proof.Machine.execCueSummary t r a s
  | .showLock t r a => Sys2Proof.Machine.execShowLock t r a s
  | .showUnlock t r a => Sys2Proof.Machine.execShowUnlock t r a s
  | .noticeTake t r a => Sys2Proof.Machine.execNoticeTake t r a s
  | .noticeDetail t r a => Sys2Proof.Machine.execNoticeDetail t r a s
  | .noticeMask t r a => Sys2Proof.Machine.execNoticeMask t r a s
  | .pollCompletelySent t b => Sys2Proof.Machine.execPollCompletelySent t b s
  | .windowClose t b => Sys2Proof.Machine.execWindowClose t b s
  | .replyCharacter t b d p e => Sys2Proof.Machine.execReplyCharacter t b d p e s
  | .replyGap t b => Sys2Proof.Machine.execReplyGap t b s
  | .guardEnd t b => Sys2Proof.Machine.execGuardEnd t b s
  | .denyMarkExpiry t j k => Sys2Proof.Machine.execDenyMarkExpiry t j k s
  | .remoteExpiry t j n => Sys2Proof.Machine.execRemoteExpiry t j n s
  | .ringExpiry t c => Sys2Proof.Machine.execRingExpiry t c s
  | .ackTimerExpiry t c => Sys2Proof.Machine.execAckTimerExpiry t c s
  | .goTimerEnd t c => Sys2Proof.Machine.execGoTimerEnd t c s
  | .goLampExpiry t j => Sys2Proof.Machine.execGoLampExpiry t j s
  | .audioFrame t x => Sys2Proof.Machine.execAudioFrame t x s
  | .drainCompletion t j k => Sys2Proof.Machine.execDrainCompletion t j k s
  | .blockEnd t => Sys2Proof.Machine.execBlockEnd t s
  | .gateHoldExpiry t j => Sys2Proof.Machine.execGateHoldExpiry t j s
  | .audioClockLost t => Sys2Proof.Machine.execAudioClockLost t s
  | .audioClockReturn t x => Sys2Proof.Machine.execAudioClockReturn t x s
  | .stagingAgeExpiry t => Sys2Proof.Machine.execStagingAgeExpiry t s
  | .transactionEnd t => Sys2Proof.Machine.execTransactionEnd t s
  | .stoppedBusCharacterComplete t b => Sys2Proof.Machine.execStoppedBusCharacterComplete t b s

end Sys2Proof.Machine
end

