-- ==== Sys2Proof/Machine/Step.lean ====
section
/-! DEFINITION. One step: the command at the front of the queue is taken. -/

namespace Sys2Proof.Machine

/-- One step: the command that has waited longest leaves the queue and has its effect; with no command waiting the part
idles (log entry 28). -/
def step (s : State) : Host.Outcome State Fault Refusal :=
  match s.pending with
  | [] => .next s
  | cmd :: rest => exec cmd { s with pending := rest }

/-- The state with the command that a word of the table's bits spells put at the front of its queue. No row of the table
has bits, so no word spells a command and the state is unchanged (Decode.lean). -/
def State.withFetchWord (s : State) (nbits w : Nat) : State :=
  match decodeTableWord nbits w with
  | some cmd => { s with pending := cmd :: s.pending }
  | none => s

end Sys2Proof.Machine
end

