-- ==== Sys2Proof/Safety.lean ====
section
/-! DEFINITION. The terms in which statements about the part are made: what counts as a safe run, which parts of the
state an event changes, when a request is processed and what its answer leaves. -/

namespace Sys2Proof.Safety

open Sys2Proof.Machine

/-! ## The parts of the state, for saying what an event leaves unchanged -/

/-- The kinds of state that the manual names, one name each. -/
inductive Part where
  | phase | clock | stations | busRecords | links | netRecords | memberPool
  | intents | talkerLists | arrivalCounter | allCall | gates | releaseIgnore
  | calls | plans | channels | blockCounter | audioClock | cues | lamps
  | transaction | latched | reply | inProcess | area | cursor | staging | lock
  | pendingNotices | noticeMask | takenNotice | queue
deriving DecidableEq, Repr

/-- A part is the same in two states. -/
def Part.same (s u : State) : Part → Prop
  | .phase => u.phase = s.phase
  | .clock => u.now = s.now
  | .stations => u.stations = s.stations
  | .busRecords => u.bus.buses = s.bus.buses
  | .links => u.bus.links = s.bus.links
  | .netRecords => u.nets.nets = s.nets.nets
  | .memberPool => u.nets.pool = s.nets.pool
  | .intents => u.talk.intents = s.talk.intents
  | .talkerLists => u.talk.talkers = s.talk.talkers
  | .arrivalCounter => u.talk.arrivals = s.talk.arrivals
  | .allCall => u.talk.allCall = s.talk.allCall
  | .gates => u.talk.gates = s.talk.gates
  | .releaseIgnore => u.talk.releaseIgnore = s.talk.releaseIgnore
  | .calls => u.calls = s.calls
  | .plans => u.plans = s.plans
  | .channels => u.mix.channels = s.mix.channels
  | .blockCounter => u.mix.frames = s.mix.frames ∧ u.mix.blockEnded = s.mix.blockEnded
  | .audioClock => u.mix.clockPresent = s.mix.clockPresent ∧ u.mix.lastEdge = s.mix.lastEdge
  | .cues => u.cues = s.cues
  | .lamps => u.lamps = s.lamps
  | .transaction => u.port.transaction = s.port.transaction
  | .latched => u.port.latched = s.port.latched
  | .reply => u.port.reply = s.port.reply
  | .inProcess => u.port.inProcess = s.port.inProcess
  | .area => u.port.area = s.port.area
  | .cursor => u.port.cursor = s.port.cursor
  | .staging => u.port.staging = s.port.staging
  | .lock => u.port.showLock = s.port.showLock ∧ u.port.lockmode = s.port.lockmode
  | .pendingNotices => u.notices.records = s.notices.records
  | .noticeMask => u.notices.mask = s.notices.mask
  | .takenNotice => u.notices.taken = s.notices.taken
  | .queue => u.pending = s.pending

/-- Between two states only the listed parts may differ. -/
def onlyChanges (parts : List Part) (s u : State) : Prop := ∀ p, p ∉ parts → p.same s u

/-- The parts that every answered request changes: the clock, the reply slot and the request in process. -/
def answerParts : List Part := [.clock, .reply, .inProcess]

/-! ## Requests -/

/-- The port processes this request: start-up has ended, and this request or none is in process (R159; log entry 2). -/
def ready (s : State) (k : RequestKind) (r : BitVec 16) (a : BitVec 32) : Prop :=
  s.phase = .running ∧ (s.port.inProcess = none ∨ s.port.inProcess = some ⟨k, r, a⟩)

/-- The state in which nothing has changed but the clock, which has come to `t`, and the reply slot, which holds the
answer to the request, with none in process any more (R158, R161). -/
def answered (s : State) (t : Time) (k : RequestKind) (r : BitVec 16) (st : Status) (v : BitVec 24) : State :=
  { s with now := max s.now t, port := { s.port with reply := .completed st k.code r v, inProcess := none } }

/-- A state holds the answer to a request, and the clock stands at `max before t`. -/
def holdsAnswer (s u : State) (t : Time) (k : RequestKind) (r : BitVec 16) (st : Status) (v : BitVec 24) : Prop :=
  u.now = max s.now t ∧ u.port.reply = .completed st k.code r v ∧ u.port.inProcess = none

/-- The request that a request command carries to its answer, with its moment. RESTART is not among them, which is never
answered (R169), nor a part of a NET CLOSE that leaves the request in process (log entry 3). -/
def requestOf : Instr → Option (Time × Request)
  | .nop t r a => some (t, ⟨.nop, r, a⟩)
  | .seek t r a => some (t, ⟨.seek, r, a⟩)
  | .put t r a => some (t, ⟨.put, r, a⟩)
  | .get t r a => some (t, ⟨.get, r, a⟩)
  | .stationSet t r a => some (t, ⟨.stationSet, r, a⟩)
  | .stationClear t r a => some (t, ⟨.stationClear, r, a⟩)
  | .stationRead t r a => some (t, ⟨.stationRead, r, a⟩)
  | .keymapSet t r a => some (t, ⟨.keymapSet, r, a⟩)
  | .gateSet t r a => some (t, ⟨.gateSet, r, a⟩)
  | .busConfigure t r a => some (t, ⟨.busConfigure, r, a⟩)
  | .busStart t r a => some (t, ⟨.busStart, r, a⟩)
  | .busStop t r a => some (t, ⟨.busStop, r, a⟩)
  | .netOpen t r a => some (t, ⟨.netOpen, r, a⟩)
  | .netClose t r ⟨a, none⟩ => some (t, ⟨.netClose, r, a⟩)
  | .memberAdd t r a => some (t, ⟨.memberAdd, r, a⟩)
  | .memberChange t r a => some (t, ⟨.memberChange, r, a⟩)
  | .memberRemove t r a => some (t, ⟨.memberRemove, r, a⟩)
  | .netRead t r a => some (t, ⟨.netRead, r, a⟩)
  | .levelOne t r a => some (t, ⟨.levelOne, r, a⟩)
  | .levelFour t r a => some (t, ⟨.levelFour, r, a⟩)
  | .levelFlush t r a => some (t, ⟨.levelFlush, r, a⟩)
  | .remoteTalk t r a => some (t, ⟨.remoteTalk, r, a⟩)
  | .remoteRelease t r a => some (t, ⟨.remoteRelease, r, a⟩)
  | .callPlace t r a => some (t, ⟨.callPlace, r, a⟩)
  | .callEnd t r a => some (t, ⟨.callEnd, r, a⟩)
  | .callRead t r a => some (t, ⟨.callRead, r, a⟩)
  | .planRead t r a => some (t, ⟨.planRead, r, a⟩)
  | .cueDefine t r a => some (t, ⟨.cueDefine, r, a⟩)
  | .cueStandby t r a => some (t, ⟨.cueStandby, r, a⟩)
  | .cueGo t r a => some (t, ⟨.cueGo, r, a⟩)
  | .cueCancel t r a => some (t, ⟨.cueCancel, r, a⟩)
  | .cueRetire t r a => some (t, ⟨.cueRetire, r, a⟩)
  | .cueRead t r a => some (t, ⟨.cueRead, r, a⟩)
  | .cueSummary t r a => some (t, ⟨.cueSummary, r, a⟩)
  | .showLock t r a => some (t, ⟨.showLock, r, a⟩)
  | .showUnlock t r a => some (t, ⟨.showUnlock, r, a⟩)
  | .noticeTake t r a => some (t, ⟨.noticeTake, r, a⟩)
  | .noticeDetail t r a => some (t, ⟨.noticeTake, r, a⟩)
  | .noticeMask t r a => some (t, ⟨.noticeMask, r, a⟩)
  | .powerOn .. | .pinReset .. | .pinResetRelease .. | .startupEnd .. | .cpSelectFall .. | .shortFrame .. => none
  | .frameStall .. | .frameComplete .. | .restart .. | .transactionEnd .. => none
  | .pollCompletelySent .. | .windowClose .. | .replyCharacter .. | .replyGap .. | .guardEnd .. => none
  | .stoppedBusCharacterComplete .. | .denyMarkExpiry .. | .remoteExpiry .. | .ringExpiry .. => none
  | .ackTimerExpiry .. | .goTimerEnd .. | .goLampExpiry .. | .audioFrame .. | .drainCompletion .. => none
  | .blockEnd .. | .gateHoldExpiry .. | .audioClockLost .. | .audioClockReturn .. | .stagingAgeExpiry .. => none
  | .netClose _ _ ⟨_, some _⟩ => none

/-- How many records the record number of a request names, by the families of section 10.9; none for a request that
ignores it. -/
def recordCount : RequestKind → Option Nat
  | .stationSet | .stationClear | .stationRead | .keymapSet | .gateSet => some 96
  | .remoteTalk | .remoteRelease | .callPlace | .planRead => some 96
  | .busConfigure | .busStart | .busStop => some 8
  | .netOpen | .netClose | .memberAdd | .netRead => some 32
  | .memberChange | .memberRemove => some 384
  | .levelOne | .levelFour => some 768
  | .callEnd | .callRead => some 24
  | .cueDefine | .cueStandby | .cueGo | .cueCancel | .cueRetire | .cueRead | .cueSummary => some 64
  | .nop | .seek | .put | .get | .restart | .levelFlush | .showLock | .showUnlock | .noticeTake | .noticeMask => none

/-! ## The beginning of a slot -/

/-- In `u` the slot of bus `b` has just begun at address `c`: its poll is the one that the state calls for, it is a FLASH
poll exactly when an entry of the station is PENDING, it has received nothing, the driver is enabled, and exactly the
PENDING entries of the station are on its list (R20, R22, R23, R35). -/
def slotBegins (u : State) (b : BusNo) (c : BusAddress) : Prop :=
  (u.busRec b).driverEnable = true
  ∧ (u.busRec b).slot = some
    { address := c, poll := u.pollBytes (stationAt b c)
      flash := (u.lamp (stationAt b c)).queue.any fun e => e.status == .pending
      phase := .poll, chars := [], extra := false, arrival := 0, discarded := false }
  ∧ ∀ e ∈ (u.lamp (stationAt b c)).queue, e.listed = true ↔ e.status = .pending

/-- The lamps of station `i` are those of before but for the list of a poll. -/
def sameButList (s u : State) (i : StationNo) : Prop :=
  (u.lamp i).goLamp = (s.lamp i).goLamp
  ∧ (u.lamp i).queue.map (fun e => (e.cue, e.status, e.shown)) = (s.lamp i).queue.map fun e => (e.cue, e.status, e.shown)

/-! ## Safe runs: what every command keeps

Each of these is kept by every command from every state that has it, together with the ones its docstring names. -/

/-- A whole number lies in a range. -/
def between (low high x : Int) : Prop := low ≤ x ∧ x ≤ high

/-- The station levels and gate settings stay in the ranges of R1. -/
structure StationInRange (r : Station) : Prop where
  trim : between (-24) 24 r.trim
  master : between (-48) 0 r.master
  dim : between 0 24 r.dim
  duck : between 0 48 r.duck
  gateOpen : between (-120) (-6) r.gateOpen
  gateClose : between (-128) (r.gateOpen - 1) r.gateClose
  gateHold : 1 ≤ r.gateHold ∧ r.gateHold ≤ 200

/-- The fields of a cue stay in the ranges of R125, R126 and R127. -/
structure CueInRange (q : Cue) : Prop where
  department : q.department ≤ 15
  number : q.number ≤ 9999
  point : q.point ≤ 9
  ackWindow : q.ackWindow ≤ 600
  goDisplay : 1 ≤ q.goDisplay ∧ q.goDisplay ≤ 10
  targets : 1 ≤ q.targets.length ∧ q.targets.length ≤ 12

/-- A plan slot's coefficients: at most that of the top of the scale; both 0 in a FREE slot, the target 0 in a DRAINING
one; and a reported mark only on a DRAINING slot that stands at 0 (R107, R111, R113, R114). -/
structure SlotInRange (x : Slot) : Prop where
  target : x.target ≤ 32768
  current : x.current ≤ 32768
  free : x.use = .free → x.target = 0 ∧ x.current = 0
  draining : ∀ o next, x.use = .draining o next → x.target = 0
  reported : x.reported = true → (∃ o next, x.use = .draining o next) ∧ x.current = 0

/-- Every counter, level and coefficient stays in the range that the manual gives it. -/
structure Ranges (s : State) : Prop where
  counts : ∀ k p, s.notices.pendingOf k = some p → 1 ≤ p.count ∧ p.count ≤ 255
  cursor : s.port.cursor ≤ 48
  arrivals : s.talk.arrivals ≤ 4294967295
  rates : ∀ b, 2 ≤ (s.busRec b).rate ∧ (s.busRec b).rate ≤ 6
  misses : ∀ i, (s.link i).misses ≤ 3
  frames : s.mix.frames ≤ 239
  peaks : ∀ i, (s.channel i).peak ≤ 8388607 ∧ ∀ p, (s.channel i).ended = some p → p ≤ 8388607
  outputs : ∀ i, between (-8388608) 8388607 (s.channel i).computed ∧ between (-8388608) 8388607 (s.channel i).sent
  gates : ∀ i, (s.gate i).hold ≤ 200 ∧ ((s.gate i).isOpen = true → 1 ≤ (s.gate i).hold)
  stations : ∀ i, StationInRange (s.station i)
  members : ∀ e m l, s.member e = some m → m.level = some l → between (-48) 12 l
  staged : ∀ b w n, s.port.staging = some b → w ∈ b.writes → levelAddressOf w.1 = some n → n.field.take w.2 = w.2
  cues : ∀ c q, s.cue c = some q → CueInRange q
  slots : ∀ i k, SlotInRange ((s.plan i).slots.get k)

/-- Every key map is one that R12 allows. -/
structure KeyMaps (s : State) : Prop where
  noSelfCall : ∀ i k, (s.key i k).binding ≠ .call i
  oneTalkPerNet : ∀ i k l n m m', (s.key i k).binding = .talk n m → (s.key i l).binding = .talk n m' → k = l
  managers : ∀ i k, (s.key i k).binding.needsManager = true → (s.station i).cls = .stageManager
  cueboxes : ∀ i k, (s.station i).kind = .cuebox → (s.key i k).binding.cueboxMay = true

/-- The links and slots follow the buses: a station that is unconfigured, or whose bus is STOPPED, is UNPOLLED (R27); only
a RUNNING bus has a slot, and one without a slot has no configured station (R21); the driver of a bus is enabled exactly
while a poll or the last character of an abandoned one is sent (R20, R33); and a plan that is not in use is empty (R89,
R106). -/
structure Links (s : State) : Prop where
  unpolled : ∀ i, (s.station i).configured = false ∨ (s.busRec (busOf i)).running = false → (s.link i).state = .unpolled
  slots : ∀ b, (s.busRec b).slot.isSome = true → (s.busRec b).running = true
  idle : ∀ b, (s.busRec b).running = true → (s.busRec b).slot = none →
    ∀ a, (s.station (stationAt b a)).configured = false
  driver : ∀ b, (s.busRec b).driverEnable = ((s.busRec b).sending || (s.busRec b).finishing)
  plans : ∀ i, s.planInUse i = false → s.plan i = {}

/-- The member lists and the member pool agree: an entry stands once in the list of its own net and in no other, a station
holds at most one entry in a net, and a net has at most 48 members; a FREE net reads as at reset; two OPEN nets never share
a name but the empty one; and every member is a configured station with audio (R38 to R41). -/
structure NetTables (s : State) : Prop where
  listed : ∀ n e, e ∈ (s.net n).members ↔ ∃ m, s.member e = some m ∧ m.net = n
  once : ∀ n, (s.net n).members.Nodup
  size : ∀ n, (s.net n).members.length ≤ 48
  oneEntry : ∀ e f m m', s.member e = some m → s.member f = some m' → m.net = m'.net → m.station = m'.station → e = f
  free : ∀ n, (s.net n).isOpen = false → s.net n = {}
  names : ∀ n n', n ≠ n' → (s.net n).isOpen = true → (s.net n').isOpen = true → (s.net n).name = (s.net n').name →
    (s.net n).name = noName
  stations : ∀ e m, s.member e = some m → (s.station m.station).isListener = true

/-- The talk intents and the talker lists: the intents stand in order, one for a pair and at most 256; each has an origin,
and belongs to an UP station that holds TALK right in an OPEN net; a talker flag is set exactly while the talker rule holds
(R55); a talker list names exactly the stations with the flag, by arrival number, then station number (R57); and the owner
of an all-call is UP with its owning key bound ALLCALL (R70, R71, R74). Kept together with `Links` and `NetTables`. -/
structure Talkers (s : State) : Prop where
  sorted : s.talk.intents.Pairwise fun x y => Intent.before x y = true
  room : s.talk.intents.length ≤ 256
  origins : ∀ x ∈ s.talk.intents, x.key.isSome = true ∨ x.remote.isSome = true
  allowed : ∀ x ∈ s.talk.intents,
    s.isUp x.station = true ∧ s.mayTalk x.station x.net = true ∧ (s.net x.net).isOpen = true
  rule : ∀ x ∈ s.talk.intents, x.arrival.isSome = true ↔
    (s.station x.station).gateEnable = false ∨ (s.gate x.station).isOpen = true
  lists : ∀ i n, i ∈ s.talkersOf n ↔ ∃ x, s.intent i n = some x ∧ x.arrival.isSome = true
  order : ∀ n, (s.talkersOf n).Pairwise fun a b => s.talksBefore n a b = true
  owner : ∀ x, s.talk.allCall = some x → s.isUp x.owner = true ∧ (s.key x.owner x.key).binding = .allCall

/-- A station is party to at most one call, never with itself, and every party is a configured station with audio that is
UP (R76, R77, R85). Kept together with `KeyMaps` and `Links`. -/
structure Calls (s : State) : Prop where
  parties : ∀ c e, s.call c = some e →
    e.caller ≠ e.callee ∧ s.planInUse e.caller = true ∧ s.planInUse e.callee = true
  exclusive : ∀ c d e f i, s.call c = some e → s.call d = some f → e.isParty i = true → f.isParty i = true → c = d

/-- The shape of the plan of station `i` (R89, R92, R97): the holders and the waiting candidates are exactly the
candidates, each once, and the listener is none of them; nobody waits while a slot is FREE, and while anybody waits every
DRAINING slot has a next. -/
structure PlanShape (i : StationNo) (p : Plan) : Prop where
  places : (p.holders ++ p.waiting).Nodup
  records : (p.candidates.map Candidate.station).Nodup
  same : ∀ t, t ∈ p.holders ++ p.waiting ↔ t ∈ p.candidates.map Candidate.station
  others : i ∉ p.candidates.map Candidate.station
  free : ∀ k, (p.slots.get k).use = .free → p.waiting = []
  bound : ∀ k o, (p.slots.get k).use = .draining o none → p.waiting = []

/-- The plan `p` of station `i` follows the talkers, calls and levels: while it is in use its candidates are those whose
paths exist (R90 to R92), the target of every ACTIVE slot is the coefficient of its occupant's level (R96, R107), and the
waiting candidates stand in rank order (R94, R95). -/
structure PlanCurrent (s : State) (i : StationNo) (p : Plan) : Prop where
  candidates : s.planInUse i = true → p.candidates = s.candidatesOf i
  targets : s.planInUse i = true → ∀ k t, (p.slots.get k).use = .active t →
    (p.slots.get k).target = coefficientOf (p.levelOf t)
  waiting : s.planInUse i = true → p.waiting.Pairwise fun a b => p.ranksBefore s a b = true

/-- Every plan follows the talkers, calls and levels, in a state whose other tables are in order. -/
structure PlansCurrent (s : State) : Prop where
  keyMaps : KeyMaps s
  links : Links s
  netTables : NetTables s
  talkers : Talkers s
  calls : Calls s
  shapes : ∀ i, PlanShape i (s.plan i)
  plans : ∀ i, PlanCurrent s i (s.plan i)

/-- Every write in the level staging buffer addresses an existing record: a member entry in use, or a configured station
(R163, R164, R165). -/
def StagedPresent (s : State) : Prop :=
  ∀ w k v, s.port.staging = some w → w.values.get k = some v →
    let a := w.group.val * 8 + k.val
    (∀ e : EntryNo, a = e.val → (s.member e).isSome = true)
    ∧ ∀ i : StationNo, a = 384 + i.val ∨ a = 480 + i.val ∨ a = 576 + i.val ∨ a = 672 + i.val →
      (s.station i).configured = true

/-- The cues and the standby queues agree: a queue holds at most 4 entries, one for a cue, each for a cue that stands by
with the station among its targets and the entry's status as that target's; a target of a standing cue has its entry; an
entry is LOST exactly while the station is not UP; READY stands exactly while the policy is met (R125, R130, R144, R145,
R149, R150); each timer runs only in the state it belongs to (R128, R133, R134); and two cues never share a label (R126).
Kept together with `Links`. -/
structure Cues (s : State) : Prop where
  size : ∀ i, (s.lamp i).queue.length ≤ 4
  once : ∀ i, ((s.lamp i).queue.map QueueEntry.cue).Nodup
  entries : ∀ i, ∀ e ∈ (s.lamp i).queue, ∃ q, s.cue e.cue = some q ∧ q.standing = true ∧ ⟨i, some e.status⟩ ∈ q.targets
  targets : ∀ c q, s.cue c = some q → q.standing = true → ∀ x ∈ q.targets,
    ∃ e ∈ (s.lamp x.station).queue, e.cue = c ∧ x.status = some e.status
  lost : ∀ i, ∀ e ∈ (s.lamp i).queue, e.status = .lost ↔ s.isUp i = false
  stations : ∀ c q, s.cue c = some q → q.stations.Nodup ∧ q.targets ≠ []
  ready : ∀ c q, s.cue c = some q → q.standing = true → (q.state = .ready ↔ q.policyMet = true)
  staged : ∀ c q, s.cue c = some q → q.state = .staged → q.noAck = false ∧ ∀ x ∈ q.targets, x.status = none
  unconfirmed : ∀ c q, s.cue c = some q → q.state ≠ .go → q.unconfirmed = false
  timers : ∀ c q, s.cue c = some q →
    (q.ackTimer.isSome = true → q.standing = true) ∧ (q.goTimer.isSome = true ↔ q.state = .go)
  labels : ∀ c d q x, s.cue c = some q → s.cue d = some x →
    q.department = x.department → q.number = x.number → q.point = x.point → c = d

end Sys2Proof.Safety
end

