-- ==== Sys2Proof/Certificates/Slice0/Obligations.lean ====
section
/-! DEFINITION. The statements about the part. Each is an obligation for the provers; its docstring names the rules of
spec/ it comes from, and the log entry where it rests on a choice of the model. -/

open Sys2Proof Sys2Proof.Machine Sys2Proof.Safety

/-! ## Steps, resets and start-up -/

/-- A step takes the command that has waited longest and has its effect with the rest of the queue; with no command
waiting the part idles (the model's choice, log entry 28). -/
def Obligations.StepTakesFrontCommand : Prop :=
  (∀ (c : Instr) (rest : List Instr) (s : State), s.pending = c :: rest →
    step s = exec c { s with pending := rest })
  ∧ ∀ s : State, s.pending = [] → step s = .next s

/-- The state after reset holds the values that R3, R18, R27, R38, R39, R54, R56, R57, R62, R68, R70, R76, R89, R124,
R125, R144, R152, R158, R162, R165, R168 and R171 give. -/
def Obligations.ResetStateValues : Prop :=
  (∀ i : StationNo, State.reset.station i =
    { configured := false, kind := .panel, cls := .crew, trim := 0, master := 0, dim := 12, duck := 12,
      gateEnable := false, gateOpen := -40, gateClose := -48, gateHold := 40,
      keys := Vector.replicate 8 { binding := .none, deny := none, stale := false } })
  ∧ (∀ b : BusNo, State.reset.busRec b =
    { running := false, rate := 3, parity := .even, slot := none, driverEnable := false, finishing := false })
  ∧ (∀ i : StationNo, State.reset.link i = { state := .unpolled, misses := 0, keys := 0 })
  ∧ (∀ n : NetNo, State.reset.net n = { isOpen := false, name := Vector.replicate 8 0, locked := false, members := [] })
  ∧ (∀ e : EntryNo, State.reset.member e = none)
  ∧ State.reset.talk.intents = [] ∧ State.reset.talk.arrivals = 0 ∧ State.reset.talk.allCall = none
  ∧ (∀ n : NetNo, State.reset.talkersOf n = [])
  ∧ (∀ i : StationNo, State.reset.gate i = { isOpen := false, hold := 0 }
      ∧ ∀ k : KeyNo, State.reset.ignoresRelease i k = false)
  ∧ (∀ c : CallNo, State.reset.call c = none) ∧ (∀ c : CueNo, State.reset.cue c = none)
  ∧ (∀ i : StationNo, (State.reset.plan i).waiting = []
      ∧ ∀ k : SlotNo, (State.reset.plan i).slots.get k = { use := .free, target := 0, current := 0, reported := false })
  ∧ (∀ i : StationNo, State.reset.channel i = { overload := false, peak := 0, ended := none, computed := 0, sent := 0 })
  ∧ State.reset.mix.frames = 0 ∧ State.reset.mix.clockPresent = true
  ∧ (∀ i : StationNo, State.reset.lamp i = { queue := [], goLamp := none })
  ∧ State.reset.port.reply = .starting ∧ State.reset.port.inProcess = none
  ∧ (∀ k : Fin 48, State.reset.port.area.get k = 0) ∧ State.reset.port.cursor = 0
  ∧ State.reset.port.staging = none ∧ State.reset.port.showLock = false
  ∧ (∀ k : NoticeKind, State.reset.notices.pendingOf k = none)
  ∧ State.reset.notices.mask = 0 ∧ State.reset.notices.taken = none

/-- Each reset command puts every block in its reset state and begins start-up, or, for RESET_N low, holds the part in
reset (R169, R170). The show lock is disengaged and LOCKMODE takes the level of the pin (R168). With select low the port
waits for it to go high (R156). When start-up ends the reply slot becomes NONE, the audio clock is PRESENT with its last
edge at this moment, and RESTARTED is raised with the code of the reset kind (R122, R158, R170, R171). The LOCKMODE level
kept while RESET_N is low is the model's choice (log entry 4). -/
def Obligations.ResetsAndStartup : Prop :=
  ∀ (s : State) (t : Time) (pin : Bool) (r : BitVec 16) (a : BitVec 32),
    let after (phase : PartPhase) (lockmode : Bool) : State :=
      { State.reset with
        phase := phase, now := max s.now t, pending := s.pending
        port := { State.reset.port with
          lockmode := lockmode
          transaction := if s.port.transaction = .released then .released else .awaitingRelease } }
    exec (.powerOn t pin) s = .next (after (.starting .power) pin)
    ∧ exec (.pinReset t) s = .next (after .held s.port.lockmode)
    ∧ (s.phase = .held → exec (.pinResetRelease t pin) s = .next (after (.starting .pin) pin))
    ∧ (ready s .restart r a → exec (.restart t r a pin) s = .next (after (.starting .command) pin))
    ∧ ∀ k : ResetKind, s.phase = .starting k →
      exec (.startupEnd t) s = .next (State.raise
        { s with
          phase := .running, now := max s.now t
          port := { s.port with reply := .none }
          mix := { s.mix with clockPresent := true, lastEdge := max s.now t } }
        .restarted (match k with | .power => 1 | .pin => 2 | .command => 3) 0)

/-! ## Notices -/

/-- A raise makes a clear record pending with count 1, or raises its count to at most 255 and replaces the latest subject
and the extra; the first subject stays, and no other kind's record changes, whether or not the kind is masked. Every pending
kind keeps a count in 1..255 (R172). -/
def Obligations.NoticeRaiseUpdates : Prop :=
  ∀ (s : State) (k : NoticeKind) (subject extra : Nat),
    (s.raise k subject extra).notices.pendingOf k =
      (match s.notices.pendingOf k with
      | none => some { count := 1, first := subject, latest := subject, extra := extra }
      | some p => some { count := min (p.count + 1) 255, first := p.first, latest := subject, extra := extra })
    ∧ (∀ j : NoticeKind, j ≠ k → (s.raise k subject extra).notices.pendingOf j = s.notices.pendingOf j)
    ∧ onlyChanges [.pendingNotices] s (s.raise k subject extra)
    ∧ ((∀ j p, s.notices.pendingOf j = some p → 1 ≤ p.count ∧ p.count ≤ 255) →
        ∀ j p, (s.raise k subject extra).notices.pendingOf j = some p → 1 ≤ p.count ∧ p.count ≤ 255)

/-- NOTICE TAKE in form TAKE returns the pending kind of highest priority, the one of lowest code, with its count and
latest subject, clears its record and copies it to the taken record; with none pending it answers zeros and leaves the
taken record. Form DETAIL returns the taken record, or zeros. Any other form is refused BAD_FORMAT (R173, R178). -/
def Obligations.NoticeTakeReturnsBest : Prop :=
  ∀ (s : State) (t : Time) (r : BitVec 16) (a : BitVec 32), ready s .noticeTake r a →
    (argByte a 0 = 0 → (∀ k, s.notices.pendingOf k = none) →
      exec (.noticeTake t r a) s = .next (answered s t .noticeTake r .done 0))
    ∧ (argByte a 0 = 0 → ∀ (k : NoticeKind) (p : PendingNotice), s.notices.pendingOf k = some p →
        (∀ j : NoticeKind, j.code < k.code → s.notices.pendingOf j = none) →
        ∃ u, exec (.noticeTake t r a) s = .next u
          ∧ holdsAnswer s u t .noticeTake r .done
              (BitVec.ofNat 8 k.code ++ BitVec.ofNat 8 p.count ++ BitVec.ofNat 8 p.latest)
          ∧ u.notices.pendingOf k = none
          ∧ (∀ j, j ≠ k → u.notices.pendingOf j = s.notices.pendingOf j)
          ∧ u.notices.taken = some { kind := k, first := p.first, extra := p.extra }
          ∧ onlyChanges (answerParts ++ [.pendingNotices, .takenNotice]) s u)
    ∧ (argByte a 0 = 1 → exec (.noticeDetail t r a) s = .next (answered s t .noticeTake r .done
        (match s.notices.taken with
        | none => 0
        | some x => BitVec.ofNat 8 x.kind.code ++ BitVec.ofNat 8 x.first ++ BitVec.ofNat 8 x.extra)))
    ∧ (argByte a 0 ≠ 0 → argByte a 0 ≠ 1 →
        exec (.noticeTake t r a) s = .next (answered s t .noticeTake r .badFormat 0))

/-- NOTICE MASK writes the nine mask bits from argument bits 0..8 and answers the mask in bits 0..8 and the pending set
in bits 12..20, kind of code k at bit 11 + k. The attention line is asserted exactly while start-up has ended and some
pending kind has its mask bit clear, bit code - 1. The mask changes nothing in how a kind is raised or taken (R171, R174,
R178). -/
def Obligations.NoticeMaskAndAttention : Prop :=
  (∀ s : State, s.attention = true ↔
    s.phase = .running ∧ ∃ k : NoticeKind,
      (s.notices.pendingOf k).isSome = true ∧ s.notices.mask.getLsbD (k.code - 1) = false)
  ∧ (∀ (s : State) (m : BitVec 9) (k : NoticeKind) (subject extra : Nat),
    let masked : State := { s with notices := { s.notices with mask := m } }
    (masked.raise k subject extra).notices.records = (s.raise k subject extra).notices.records
    ∧ masked.noticeTake.value = s.noticeTake.value
    ∧ masked.noticeTake.state.notices.records = s.noticeTake.state.notices.records)
  ∧ ∀ (s : State) (t : Time) (r : BitVec 16) (a : BitVec 32), ready s .noticeMask r a →
    ∃ u v, exec (.noticeMask t r a) s = .next u ∧ holdsAnswer s u t .noticeMask r .done v
      ∧ (∀ j : Fin 9, u.notices.mask.getLsbD j.val = a.getLsbD j.val ∧ v.getLsbD j.val = a.getLsbD j.val)
      ∧ (∀ k : NoticeKind, v.getLsbD (11 + k.code) = (s.notices.pendingOf k).isSome)
      ∧ (∀ j : Fin 3, v.getLsbD (9 + j.val) = false ∧ v.getLsbD (21 + j.val) = false)
      ∧ onlyChanges (answerParts ++ [.noticeMask]) s u

/-! ## Transactions and frames -/

/-- A transaction begins at the fall of select and latches the slot (R156, R158). A short frame is discarded, a stalled
one takes no more bits until select rises, and in both the slot, the request in process and the staging buffer stay as
they were (R160). A transaction whose frame has completed or stalled ends when select rises. CP_DOUT carries the bytes of
the latched reply, most significant bit first, then ones; after a stall ones; and with select released or RESET_N low it is
not driven (R156, R158, R160, R169). That it is not driven while select stays low after a reset is the model's choice (log
entry 29). A complete frame meets the first of the four rows of R159 that applies to the content latched. A code that names
no request is answered BAD_KIND at once, with no IN_PROGRESS before it: the model's reading of R161 and
95_what_each_step_holds.md (log entry 21). -/
def Obligations.TransactionsAndFrames : Prop :=
  (∀ (s : State) (t : Time),
    (s.port.transaction = .released → s.phase ≠ .held →
      exec (.cpSelectFall t) s = .next { s with
        now := max s.now t, port := { s.port with transaction := .receiving, latched := s.port.reply } })
    ∧ (s.port.transaction = .receiving →
      exec (.shortFrame t) s = .next { s with
        now := max s.now t, port := { s.port with transaction := .released } }
      ∧ exec (.frameStall t) s = .next { s with
        now := max s.now t, port := { s.port with transaction := .stalled } })
    ∧ (s.port.transaction = .completed ∨ s.port.transaction = .stalled →
      exec (.transactionEnd t) s = .next { s with
        now := max s.now t, port := { s.port with transaction := .released } }))
  ∧ (∀ (s : State) (edges : Nat),
    (s.phase ≠ .held → s.port.transaction = .receiving ∨ s.port.transaction = .completed →
      (∀ byte bit : Fin 8, edges = 8 * byte.val + bit.val →
        s.cpDout edges = some ((frameByte s.port.latched.frame byte.val).getMsbD bit.val))
      ∧ (64 ≤ edges → s.cpDout edges = some true))
    ∧ (s.phase ≠ .held → s.port.transaction = .stalled → s.cpDout edges = some true)
    ∧ (s.phase = .held ∨ s.port.transaction = .released ∨ s.port.transaction = .awaitingRelease →
      s.cpDout edges = none))
  ∧ ∀ (s : State) (t : Time) (f : BitVec 64), s.port.transaction = .receiving →
      let after (reply : Reply) (q : Option Request) : State :=
        { s with now := max s.now t, port := { s.port with transaction := .completed, reply := reply, inProcess := q } }
      ((s.port.latched = .starting ∨ ∃ k r, s.port.latched = .inProgress k r) →
        exec (.frameComplete t f) s = .next (after s.port.reply s.port.inProcess))
      ∧ (s.port.latched ≠ .starting → (∀ k r, s.port.latched ≠ .inProgress k r) →
        (frameChecks f = false →
          exec (.frameComplete t f) s = .next (after (.checkFailed (frameByte f 0) (f.extractLsb' 40 16)) s.port.inProcess))
        ∧ (frameChecks f = true → (∀ k : RequestKind, k.code ≠ frameByte f 0) →
          exec (.frameComplete t f) s =
            .next (after (.completed .badKind (frameByte f 0) (f.extractLsb' 40 16) 0) s.port.inProcess))
        ∧ ∀ k : RequestKind, frameChecks f = true → k.code = frameByte f 0 →
          exec (.frameComplete t f) s = .next (after (.inProgress (frameByte f 0) (f.extractLsb' 40 16))
            (some ⟨k, f.extractLsb' 40 16, f.extractLsb' 8 32⟩)))

/-- Every request is read back from its own frame, which passes the check; its bytes stand as R177 lays them out; and a
frame that passes the check and names a request is that request's frame, so no bit is dropped (R156, R157, R177). -/
def Obligations.RequestFramesDecode : Prop :=
  (∀ q : Request, frameChecks q.frame = true ∧ frameRequest q.frame = some q
    ∧ frameByte q.frame 0 = q.kind.code
    ∧ frameByte q.frame 1 ++ frameByte q.frame 2 = q.record
    ∧ frameByte q.frame 3 ++ frameByte q.frame 4 ++ frameByte q.frame 5 ++ frameByte q.frame 6 = q.argument
    ∧ frameByte q.frame 3 = argByte q.argument 0 ∧ frameByte q.frame 6 = argByte q.argument 3)
  ∧ ∀ (f : BitVec 64) (q : Request), frameChecks f = true → frameRequest f = some q → q.frame = f

/-- Every reply frame passes the check that the host makes over it, and holds status, echoes and value where R177 puts
them. The check finds every single-bit error: a frame that passes, with any one of its 64 bits turned over, fails (R157,
R158, R177). -/
def Obligations.ReplyFramesCheck : Prop :=
  (∀ f : BitVec 64, frameChecks f = true → ∀ i : Fin 64, frameChecks (f ^^^ (1#64 <<< i.val)) = false)
  ∧ ∀ c : Reply, frameChecks c.frame = true
    ∧ frameByte c.frame 0 = (match c with
      | .none => 0x01 | .inProgress _ _ => 0x02 | .checkFailed _ _ => 0x03 | .starting => 0x04
      | .completed st _ _ _ => st.code)
    ∧ c.frame.extractLsb' 32 24 = (match c with
      | .none | .starting => 0
      | .inProgress k r | .checkFailed k r | .completed _ k r _ => k ++ r)
    ∧ c.frame.extractLsb' 8 24 = (match c with
      | .completed _ _ _ v => v
      | .none | .starting | .inProgress _ _ | .checkFailed _ _ => 0)

/-! ## Requests in general -/

/-- A request that the port processes is answered: its reply echoes its kind and record, no request is in process any
more, and an answer other than DONE carries value 0 and has changed nothing else. A record number outside the range of the
records that the request names is refused BAD_RECORD (R158, R161). -/
def Obligations.RequestsAreAnswered : Prop :=
  ∀ (c : Instr) (t : Time) (q : Request) (s : State),
    requestOf c = some (t, q) → ready s q.kind q.record q.argument →
    ∃ u st v, exec c s = .next u ∧ holdsAnswer s u t q.kind q.record st v
      ∧ (st ≠ .done → v = 0 ∧ u = answered s t q.kind q.record st 0)
      ∧ ∀ n : Nat, recordCount q.kind = some n → n ≤ q.record.toNat → st = .badRecord

/-! ## The transfer area and the show lock -/

/-- SEEK sets the cursor to the first argument byte, at most 47. PUT writes the four argument bytes at the cursor,
dropping those at 48 and above, and advances the cursor by four, to at most 48. GET returns the three bytes at the cursor,
0 at 48 and above, and advances it by three, to at most 48 (R162). -/
def Obligations.TransferAreaRequests : Prop :=
  ∀ (s : State) (t : Time) (r : BitVec 16) (a : BitVec 32),
    (ready s .seek r a →
      ∃ u, exec (.seek t r a) s = .next u
        ∧ holdsAnswer s u t .seek r .done (BitVec.ofNat 8 (min (argByte a 0).toNat 47) ++ 0#16)
        ∧ u.port.cursor = min (argByte a 0).toNat 47
        ∧ onlyChanges (answerParts ++ [.cursor]) s u)
    ∧ (ready s .put r a →
      ∃ u, exec (.put t r a) s = .next u
        ∧ holdsAnswer s u t .put r .done (BitVec.ofNat 8 (min (s.port.cursor + 4) 48) ++ 0#16)
        ∧ u.port.cursor = min (s.port.cursor + 4) 48
        ∧ (∀ k : Fin 48, u.port.area.get k =
            if s.port.cursor ≤ k.val ∧ k.val < s.port.cursor + 4 then argByte a (k.val - s.port.cursor)
            else s.port.area.get k)
        ∧ onlyChanges (answerParts ++ [.cursor, .area]) s u)
    ∧ (ready s .get r a →
      let byteAt (i : Nat) : Byte := if h : i < 48 then s.port.area.get ⟨i, h⟩ else 0
      ∃ u, exec (.get t r a) s = .next u
        ∧ holdsAnswer s u t .get r .done
            (byteAt s.port.cursor ++ byteAt (s.port.cursor + 1) ++ byteAt (s.port.cursor + 2))
        ∧ u.port.cursor = min (s.port.cursor + 3) 48
        ∧ onlyChanges (answerParts ++ [.cursor]) s u)

/-- NOP does nothing and is answered DONE with value 0 (R161). SHOW LOCK engages the lock. SHOW UNLOCK disengages it
where LOCKMODE is 0 and is refused FIXED where it is 1. The value carries the lock state and LOCKMODE (R168). -/
def Obligations.LockRequests : Prop :=
  ∀ (s : State) (t : Time) (r : BitVec 16) (a : BitVec 32),
    (ready s .nop r a → exec (.nop t r a) s = .next (answered s t .nop r .done 0))
    ∧ (ready s .showLock r a →
      ∃ u, exec (.showLock t r a) s = .next u
        ∧ holdsAnswer s u t .showLock r .done (1#8 ++ (if s.port.lockmode then 1#8 else 0#8) ++ 0#8)
        ∧ u.port.showLock = true ∧ u.port.lockmode = s.port.lockmode ∧ onlyChanges (answerParts ++ [.lock]) s u)
    ∧ (ready s .showUnlock r a → s.port.lockmode = false →
      ∃ u, exec (.showUnlock t r a) s = .next u ∧ holdsAnswer s u t .showUnlock r .done 0
        ∧ u.port.showLock = false ∧ u.port.lockmode = false ∧ onlyChanges (answerParts ++ [.lock]) s u)
    ∧ (ready s .showUnlock r a → s.port.lockmode = true →
      exec (.showUnlock t r a) s = .next (answered s t .showUnlock r .fixed 0))

/-! ## Stations and buses -/

/-- STATION SET on an unconfigured station: kind and class from the argument, every other field at its default. On a
RUNNING bus the station enters PROBING, and on an idle one its slot begins at once, with the poll that the state calls for
and exactly the PENDING entries on its list (R2, R4, R21, R23, R35, R36). -/
def Obligations.StationSetConfigures : Prop :=
  ∀ (s : State) (t : Time) (r : BitVec 16) (a : BitVec 32) (i : StationNo) (k : Kind) (c : PriorityClass),
    ready s .stationSet r a → r.toNat = i.val → argByte a 0 = k.code → argByte a 1 = c.code →
    (s.station i).configured = false →
    let b := busOf i
    ∃ u, exec (.stationSet t r a) s = .next u ∧ holdsAnswer s u t .stationSet r .done 0
      ∧ u.station i =
        { configured := true, kind := k, cls := c, trim := 0, master := 0, dim := 12, duck := 12, gateEnable := false,
          gateOpen := -40, gateClose := -48, gateHold := 40,
          keys := Vector.replicate 8 { binding := .none, deny := none, stale := false } }
      ∧ (∀ j, j ≠ i → u.station j = s.station j)
      ∧ ((s.busRec b).running = true → u.link i = { state := .probing, misses := 0, keys := 0 })
      ∧ ((s.busRec b).running = false → u.link i = s.link i)
      ∧ (∀ j, j ≠ i → u.link j = s.link j)
      ∧ ((s.busRec b).running = true → (s.busRec b).slot = none →
          slotBegins u b (addressOf i) ∧ sameButList s u i ∧ (∀ j, j ≠ i → u.lamp j = s.lamp j)
          ∧ u.busRec b = { s.busRec b with slot := (u.busRec b).slot, driverEnable := true })
      ∧ (((s.busRec b).running = false ∨ (s.busRec b).slot ≠ none) → u.busRec b = s.busRec b ∧ u.lamps = s.lamps)
      ∧ (∀ d, d ≠ b → u.busRec d = s.busRec d)
      ∧ onlyChanges (answerParts ++ [.stations, .links, .busRecords, .lamps]) s u

/-- STATION SET on a configured station that passes checks 3 to 6 of R5: after the flush that R166 calls for, the kind and
class are written, the gate enable of a CUEBOX becomes off, every other field is kept, and the change is handed to the
Planner (R5, R6). The gate state of a new CUEBOX is the model's choice (log entry 15). -/
def Obligations.StationSetReclassifies : Prop :=
  ∀ (s : State) (t : Time) (r : BitVec 16) (a : BitVec 32) (i : StationNo) (k : Kind) (c : PriorityClass),
    ready s .stationSet r a → r.toNat = i.val → argByte a 0 = k.code → argByte a 1 = c.code →
    (s.station i).configured = true →
    (k = (s.station i).kind ∨ (s.busRec (busOf i)).running = false) →
    (c = .stageManager ∨ ∀ j : KeyNo, (s.key i j).binding ≠ .allCall
      ∧ (∀ q, (s.key i j).binding ≠ .standby q) ∧ ∀ q, (s.key i j).binding ≠ .go q) →
    (k = .cuebox → (∀ j : KeyNo, (s.key i j).binding = .none ∨ (s.key i j).binding = .ack)
      ∧ ∀ e m, s.member e = some m → m.station ≠ i) →
    let s1 := (s.clockTo t).flushIf (s.stagesStation i)
    ∃ u v, exec (.stationSet t r a) s = .next u ∧ holdsAnswer s u t .stationSet r .done 0
      ∧ u.station i = { s1.station i with
          kind := k, cls := c, gateEnable := if k = .cuebox then false else (s1.station i).gateEnable }
      ∧ (∀ j, j ≠ i → u.station j = s1.station j)
      ∧ v.stations = u.stations ∧ onlyChanges [.stations, .gates, .channels] s1 v ∧ u.plans = v.replan.plans
      ∧ (k ≠ .cuebox → u.talk.gates = s.talk.gates ∧ u.mix.channels = s.mix.channels)
      ∧ onlyChanges (answerParts ++ [.stations, .memberPool, .staging, .plans, .gates, .channels]) s u

/-- STATION CLEAR on a configured station to which no member entry, cue or call refers: after the flush its record takes
the unconfigured values, its link, gate, release-ignore marks and go-lamp timer their reset values; a slot in progress for
it is discarded; if it was UP its intents, its all-call and its plan are gone. No notice is raised, and the records and
links of other stations stay (R7, R32, R36, R62, R68, R120, R152). -/
def Obligations.StationClearResets : Prop :=
  ∀ (s : State) (t : Time) (r : BitVec 16) (a : BitVec 32) (i : StationNo),
    ready s .stationClear r a → r.toNat = i.val → (s.station i).configured = true →
    (∀ e m, s.member e = some m → m.station ≠ i) →
    (∀ c q, s.cue c = some q → i ∉ q.targets.map Target.station) →
    (∀ c e, s.call c = some e → e.caller ≠ i ∧ e.callee ≠ i) →
    let s1 := (s.clockTo t).flushIf (s.stagesStation i)
    ∃ u, exec (.stationClear t r a) s = .next u ∧ holdsAnswer s u t .stationClear r .done 0
      ∧ u.station i = State.reset.station i ∧ (∀ j, j ≠ i → u.station j = s1.station j)
      ∧ u.link i = State.reset.link i ∧ (∀ j, j ≠ i → u.link j = s.link j)
      ∧ u.gate i = State.reset.gate i ∧ (∀ j, j ≠ i → u.gate j = s.gate j)
      ∧ (∀ k, u.ignoresRelease i k = false)
      ∧ (u.lamp i).goLamp = none ∧ (∀ j, j ≠ i → u.lamp j = s.lamp j)
      ∧ (u.channel i).peak = 0 ∧ (u.channel i).ended = none
      ∧ (s.isUp i = true → (∀ n, u.intent i n = none) ∧ u.plan i = State.reset.plan i
          ∧ ∀ w, u.talk.allCall = some w → w.owner ≠ i)
      ∧ (∀ x, (s.busRec (busOf i)).slot = some x → x.address = addressOf i →
          (u.busRec (busOf i)).slot = some { x with discarded := true })
      ∧ onlyChanges (answerParts ++ [.stations, .busRecords, .links, .memberPool, .staging, .intents, .talkerLists,
          .gates, .releaseIgnore, .allCall, .plans, .channels, .cues, .lamps]) s u

/-- KEYMAP SET taken: each key has its binding of the whole map as it stands after the write; a key whose binding stays
keeps its marks; a key whose binding changes loses its deny mark, has its stale mark set exactly when it is down in the
last accepted key set, and its old binding's effect is ended: no KEY origin of that key is left in the intent of a TALK
binding, whose release-ignore mark is cleared, and an all-call owned through it has ended. No other release-ignore mark
changes (R12, R13, R14, R63). -/
def Obligations.KeymapSetRebinds : Prop :=
  ∀ (s : State) (t : Time) (r : BitVec 16) (a : BitVec 32) (i : StationNo) (map : KeyNo → Binding),
    let area (n : Nat) : Byte := if h : n < 48 then s.port.area.get ⟨n, h⟩ else 0
    let entry (e : Nat) : Option Binding := bindingOf ⟨area (3 * e), area (3 * e + 1), area (3 * e + 2)⟩
    ready s .keymapSet r a → r.toNat = i.val → (s.station i).configured = true →
    ((argByte a 0 = 0 ∧ ∀ k : KeyNo, if k.val < 4 then entry k.val = some (map k) else map k = (s.key i k).binding)
      ∨ (argByte a 0 = 1 ∧ ∀ k : KeyNo,
          if k.val < 4 then map k = (s.key i k).binding else entry (k.val - 4) = some (map k))
      ∨ (argByte a 0 = 2 ∧ ∀ k : KeyNo, if k.val < 4 then entry k.val = some (map k) else map k = .none)) →
    (∀ k, map k ≠ .call i) →
    (∀ j k n x y, map j = .talk n x → map k = .talk n y → j = k) →
    ((s.station i).cls = .stageManager ∨
      ∀ k, map k ≠ .allCall ∧ (∀ q, map k ≠ .standby q) ∧ ∀ q, map k ≠ .go q) →
    ((s.station i).kind = .cuebox → ∀ k, map k = .none ∨ map k = .ack) →
    ∃ u, exec (.keymapSet t r a) s = .next u ∧ holdsAnswer s u t .keymapSet r .done 0
      ∧ (∀ k, (u.key i k).binding = map k)
      ∧ (∀ k, map k = (s.key i k).binding → u.key i k = s.key i k)
      ∧ (∀ k, map k ≠ (s.key i k).binding →
          (u.key i k).deny = none ∧ (u.key i k).stale = (s.link i).keys.getLsbD k.val
          ∧ (∀ n m x o, (s.key i k).binding = .talk n m → u.intent i n = some x → x.key = some o → o.key ≠ k)
          ∧ (∀ n m, (s.key i k).binding = .talk n m → u.ignoresRelease i k = false)
          ∧ ((s.key i k).binding = .allCall → ∀ w, u.talk.allCall = some w → w.owner = i → w.key ≠ k))
      ∧ (∀ j l, ¬ (j = i ∧ map l ≠ (s.key i l).binding ∧ ∃ n m, (s.key i l).binding = .talk n m) →
          u.ignoresRelease j l = s.ignoresRelease j l)
      ∧ { u.station i with keys := (s.station i).keys } = s.station i ∧ (∀ j, j ≠ i → u.station j = s.station j)
      ∧ onlyChanges (answerParts ++ [.stations, .intents, .talkerLists, .allCall, .releaseIgnore, .plans]) s u

/-- GATE SET taken on a configured station with audio: the clamped values are written and answered; turning the enable on
closes the gate with hold count 0 and no intent of the station is a talker any more; turning it off closes the stored gate
and every intent of an UP station with TALK right in an OPEN net is a talker (R10, R11). The hold count when the enable
goes off is the model's choice (log entry 22). -/
def Obligations.GateSetWrites : Prop :=
  ∀ (s : State) (t : Time) (r : BitVec 16) (a : BitVec 32) (i : StationNo),
    ready s .gateSet r a → r.toNat = i.val → (s.station i).configured = true → (s.station i).kind ≠ .cuebox →
    (argByte a 0).toNat ≤ 1 →
    let s1 := (s.clockTo t).flushIf (s.stagesStation i)
    let open_ : Int := max (-120) (min (-6) (argByte a 1).toInt)
    let close : Int := max (-128) (min (open_ - 1) (argByte a 2).toInt)
    let hold : Nat := max 1 (min 200 (argByte a 3).toNat)
    let on := argByte a 0 == 1
    let before := (s.station i).gateEnable
    ∃ u, exec (.gateSet t r a) s = .next u
      ∧ holdsAnswer s u t .gateSet r .done (BitVec.ofInt 8 open_ ++ BitVec.ofInt 8 close ++ BitVec.ofNat 8 hold)
      ∧ u.station i = { s1.station i with gateEnable := on, gateOpen := open_, gateClose := close, gateHold := hold }
      ∧ (∀ j, j ≠ i → u.station j = s1.station j)
      ∧ (before = on → u.gate i = s.gate i ∧ u.talk.intents = s.talk.intents)
      ∧ (before = false → on = true → u.gate i = { isOpen := false, hold := 0 }
          ∧ ∀ n x, u.intent i n = some x → x.arrival = none)
      ∧ (before = true → on = false → u.gate i = { s.gate i with isOpen := false }
          ∧ ∀ n x, u.intent i n = some x → s.isUp i = true → s.mayTalk i n = true → (s.net n).isOpen = true →
              x.arrival.isSome = true)
      ∧ (∀ j, j ≠ i → u.gate j = s.gate j)
      ∧ onlyChanges (answerParts ++ [.stations, .memberPool, .staging, .gates, .intents, .talkerLists, .arrivalCounter,
          .plans]) s u

/-- BUS CONFIGURE on a STOPPED bus writes the rate selector and the parity mode, and is refused BUSY on a RUNNING one and
BAD_FORMAT for a selector outside 2..6 or a parity code above 3 (R19). BUS START sets a STOPPED bus RUNNING, takes every
configured station on it to PROBING, and begins the first slot at the lowest configured address, if there is one, with the
poll that the state calls for and exactly the PENDING entries on its list; a RUNNING bus is refused ALREADY (R23, R28,
R35). -/
def Obligations.BusConfigureAndStart : Prop :=
  ∀ (s : State) (t : Time) (r : BitVec 16) (a : BitVec 32) (b : BusNo), r.toNat = b.val →
    (ready s .busConfigure r a →
      ((s.busRec b).running = true → exec (.busConfigure t r a) s = .next (answered s t .busConfigure r .busy 0))
      ∧ ((s.busRec b).running = false → ((argByte a 0).toNat < 2 ∨ 6 < (argByte a 0).toNat ∨ 3 < (argByte a 1).toNat) →
          exec (.busConfigure t r a) s = .next (answered s t .busConfigure r .badFormat 0))
      ∧ ∀ p : Parity, (s.busRec b).running = false → 2 ≤ (argByte a 0).toNat → (argByte a 0).toNat ≤ 6 →
          argByte a 1 = p.code →
          ∃ u, exec (.busConfigure t r a) s = .next u ∧ holdsAnswer s u t .busConfigure r .done 0
            ∧ u.busRec b = { s.busRec b with rate := (argByte a 0).toNat, parity := p }
            ∧ (∀ d, d ≠ b → u.busRec d = s.busRec d) ∧ onlyChanges (answerParts ++ [.busRecords]) s u)
    ∧ (ready s .busStart r a →
      ((s.busRec b).running = true → exec (.busStart t r a) s = .next (answered s t .busStart r .already 0))
      ∧ ((s.busRec b).running = false →
          ∃ u, exec (.busStart t r a) s = .next u ∧ holdsAnswer s u t .busStart r .done 0
            ∧ (u.busRec b).running = true ∧ (u.busRec b).rate = (s.busRec b).rate
            ∧ (u.busRec b).parity = (s.busRec b).parity
            ∧ (∀ c : BusAddress, u.link (stationAt b c) =
                if (s.station (stationAt b c)).configured then { state := .probing, misses := 0, keys := 0 }
                else s.link (stationAt b c))
            ∧ (∀ i, busOf i ≠ b → u.link i = s.link i)
            ∧ (∀ c : BusAddress, (s.station (stationAt b c)).configured = true →
                (∀ d : BusAddress, d < c → (s.station (stationAt b d)).configured = false) →
                slotBegins u b c ∧ ∀ j, j ≠ stationAt b c → u.lamp j = s.lamp j)
            ∧ ((∀ c : BusAddress, (s.station (stationAt b c)).configured = false) →
                u.busRec b = { s.busRec b with running := true, slot := none } ∧ u.lamps = s.lamps)
            ∧ (∀ j, sameButList s u j) ∧ (u.busRec b).finishing = (s.busRec b).finishing
            ∧ (∀ d, d ≠ b → u.busRec d = s.busRec d)
            ∧ onlyChanges (answerParts ++ [.busRecords, .links, .lamps]) s u))

/-- BUS STOP abandons the slot, keeps rate and parity, and takes every configured station of the bus to UNPOLLED; each that
was UP loses its intents, the all-call it owned and its plan contents. Every call with a party on the bus ends, no other
does, and CALL_ENDED with reason LINK_LOST (5) is raised once for each and nothing else is raised. The stations stay
configured. The driver stays enabled exactly while a character of the abandoned poll is on the line. A STOPPED bus is
refused ALREADY (R32, R33, R83, R85). The order of the call ends is left open here (log entry 9); that the link keeps its
miss count and key set is the model's choice (log entry 23), and so is how a character of the abandoned poll ends (log
entry 14). -/
def Obligations.BusStopUnpolls : Prop :=
  ∀ (s : State) (t : Time) (r : BitVec 16) (a : BitVec 32) (b : BusNo), r.toNat = b.val → ready s .busStop r a →
    ((s.busRec b).running = false → exec (.busStop t r a) s = .next (answered s t .busStop r .already 0))
    ∧ ((s.busRec b).running = true →
      ∃ u, exec (.busStop t r a) s = .next u ∧ holdsAnswer s u t .busStop r .done 0
        ∧ (u.busRec b).running = false ∧ (u.busRec b).slot = none
        ∧ (u.busRec b).rate = (s.busRec b).rate ∧ (u.busRec b).parity = (s.busRec b).parity
        ∧ ((u.busRec b).finishing = true ↔
            (s.busRec b).finishing = true ∨ ∃ x, (s.busRec b).slot = some x ∧ x.phase = .poll)
        ∧ (u.busRec b).driverEnable = (u.busRec b).finishing
        ∧ (∀ d, d ≠ b → u.busRec d = s.busRec d)
        ∧ (∀ c : BusAddress, (s.station (stationAt b c)).configured = true →
            u.link (stationAt b c) = { s.link (stationAt b c) with state := .unpolled })
        ∧ (∀ i, busOf i ≠ b → u.link i = s.link i)
        ∧ (∀ i, (u.station i).configured = (s.station i).configured)
        ∧ (∀ i, busOf i = b → (s.station i).configured = true → s.isUp i = true →
            (∀ n, u.intent i n = none) ∧ u.plan i = State.reset.plan i
            ∧ (∀ w, u.talk.allCall = some w → w.owner ≠ i)
            ∧ (∀ e ∈ (u.lamp i).queue, e.status = .lost ∧ e.shown = false))
        ∧ (Calls s →
          let lost (c : CallNo) : Prop := ∃ e, s.call c = some e ∧ (busOf e.caller = b ∨ busOf e.callee = b)
          (∀ c, lost c → u.call c = none) ∧ (∀ c, ¬ lost c → u.call c = s.call c)
          ∧ ∃ ends : List CallNo, ends.Nodup ∧ (∀ c, c ∈ ends ↔ lost c)
            ∧ u.notices = (ends.foldl (fun v c => v.raise .callEnded c.val 5) s).notices)
        ∧ u.notices.pendingOf .linkDown = s.notices.pendingOf .linkDown
        ∧ u.notices.pendingOf .linkUp = s.notices.pendingOf .linkUp
        ∧ onlyChanges (answerParts ++ [.busRecords, .links, .stations, .intents, .talkerLists, .releaseIgnore, .allCall,
            .calls, .plans, .channels, .cues, .lamps, .pendingNotices]) s u)

/-! ## Records read into the transfer area -/

/-- The four loading requests, after the flush that each calls for: the record stands in the area from byte 0 as R179 lays
it out, every byte past it is 0, and the cursor is 0 (R8, R52, R53, R108, R142, R162, R179). -/
def Obligations.LoadingRequests : Prop :=
  ∀ (s : State) (t : Time) (r : BitVec 16) (a : BitVec 32),
    let num (n : Nat) : Byte := BitVec.ofNat 8 n
    let lev (z : Int) : Byte := BitVec.ofInt 8 z
    let flag (b : Bool) : Byte := if b then 1 else 0
    let who (x : Option StationNo) : Byte := match x with | some i => BitVec.ofNat 8 i.val | none => 0xFF
    let base := answerParts ++ [.area, .cursor]
    (∀ i : StationNo, ready s .stationRead r a → r.toNat = i.val →
      let s1 := (s.clockTo t).flushIf (s.stagesStation i)
      let x := s1.station i
      ∃ u, exec (.stationRead t r a) s = .next u ∧ holdsAnswer s u t .stationRead r .done 0 ∧ u.port.cursor = 0
        ∧ (∀ (p : Nat) (h : p < 48), p < 15 → u.port.area.get ⟨p, h⟩ =
            [flag x.configured, x.kind.code, x.cls.code, lev x.trim, lev x.master, lev x.dim, lev x.duck,
              flag x.gateEnable, lev x.gateOpen, lev x.gateClose, num x.gateHold, flag (s.gate i).isOpen,
              (s.link i).state.code, (s.link i).keys, u.port.area.get 14].getD p 0)
        ∧ (∀ k : KeyNo, (u.port.area.get 14).getLsbD k.val = (s.key i k).deny.isSome)
        ∧ (∀ (k : KeyNo) (h : 15 + 3 * k.val + 2 < 48),
            u.port.area.get ⟨15 + 3 * k.val, by omega⟩ = (s.key i k).binding.bytes.kind
            ∧ u.port.area.get ⟨15 + 3 * k.val + 1, by omega⟩ = (s.key i k).binding.bytes.param
            ∧ u.port.area.get ⟨15 + 3 * k.val + 2, h⟩ = (s.key i k).binding.bytes.mode)
        ∧ (∀ (p : Nat) (h : p < 48), 39 ≤ p → u.port.area.get ⟨p, h⟩ = 0)
        ∧ onlyChanges (base ++ [.stations, .memberPool, .staging, .plans]) s u)
    ∧ (∀ n : NetNo, ready s .netRead r a → r.toNat = n.val → (argByte a 0).toNat ≤ 3 →
      let s1 := (s.clockTo t).flushIf (s.stagesNet n)
      let pos (p : Nat) : Option EntryNo := (s.net n).members[12 * (argByte a 0).toNat + p]?
      (∀ e ∈ (s.net n).members, (s.member e).isSome = true) →
      ∃ u v, exec (.netRead t r a) s = .next u ∧ holdsAnswer s u t .netRead r .done v ∧ u.port.cursor = 0
        ∧ (∀ (p : Nat) (h : 4 * p + 3 < 48),
            (pos p = none → ∀ d : Fin 4, u.port.area.get ⟨4 * p + d.val, by omega⟩ = 0xFF)
            ∧ ∀ e m, pos p = some e → s1.member e = some m →
                u.port.area.get ⟨4 * p, by omega⟩ = num m.station.val
                ∧ u.port.area.get ⟨4 * p + 1, by omega⟩ = m.rights.code
                ∧ u.port.area.get ⟨4 * p + 2, by omega⟩ = lev (m.level.getD (-128))
                ∧ u.port.area.get ⟨4 * p + 3, h⟩ = num e.val)
        ∧ ((s.net n).members.length ≤ 48 → (v.extractLsb' 18 6).toNat = (s.net n).members.length)
        ∧ v.getLsbD 17 = (s.net n).isOpen ∧ v.getLsbD 16 = (s.net n).locked
        ∧ (∀ p : Fin 12, v.getLsbD p.val = (match pos p.val with | some e => decide (256 ≤ e.val) | none => false))
        ∧ onlyChanges (base ++ [.stations, .memberPool, .staging, .plans]) s u)
    ∧ (∀ i : StationNo, ready s .planRead r a → r.toNat = i.val →
      let s1 := (s.clockTo t).flushIf (s.stagesPlan i)
      let p := s1.plan i
      ∃ u, exec (.planRead t r a) s = .next u ∧ u.port.cursor = 0
        ∧ holdsAnswer s u t .planRead r .done
            (flag (s1.planInUse i) ++ num (p.holders.length) ++ num (p.waiting.length))
        ∧ (∀ (k : SlotNo) (h : 4 * k.val + 3 < 48),
            u.port.area.get ⟨4 * k.val, by omega⟩ = (match (p.slots.get k).use with
              | .free => 0 | .active _ => 1 | .draining _ _ => 2)
            ∧ u.port.area.get ⟨4 * k.val + 1, by omega⟩ = who (p.slots.get k).use.occupant
            ∧ u.port.area.get ⟨4 * k.val + 2, by omega⟩ = who (match (p.slots.get k).use with
              | .draining _ next => next | .free | .active _ => none)
            ∧ u.port.area.get ⟨4 * k.val + 3, h⟩ = num ((p.slots.get k).target / 256))
        ∧ u.port.area.get 32 = num p.waiting.length
        ∧ (∀ (k : Nat) (h : 33 + k < 48), k < 8 → u.port.area.get ⟨33 + k, h⟩ = who p.waiting[k]?)
        ∧ (∀ (q : Nat) (h : q < 48), 41 ≤ q → u.port.area.get ⟨q, h⟩ = 0)
        ∧ onlyChanges (base ++ [.stations, .memberPool, .staging, .plans]) s u)
    ∧ (∀ c : CueNo, ready s .cueRead r a → r.toNat = c.val →
      ∃ u, exec (.cueRead t r a) s = .next u ∧ holdsAnswer s u t .cueRead r .done 0 ∧ u.port.cursor = 0
        ∧ (s.cue c = none → ∀ p, u.port.area.get p = 0)
        ∧ (∀ q, s.cue c = some q →
            (∀ (p : Nat) (h : p < 48), p < 10 → u.port.area.get ⟨p, h⟩ =
              [q.state.code, num q.department, num (q.number / 256), num q.number, num q.point,
                policyByte q.policy q.direct q.repeatable q.locked, num (q.ackWindow / 256), num q.ackWindow,
                num q.goDisplay, num q.targets.length].getD p 0)
            ∧ (∀ (k : Nat) (h : 22 + k < 48), k < 12 →
                u.port.area.get ⟨10 + k, by omega⟩ = (match q.targets[k]? with | some x => num x.station.val | none => 0)
                ∧ u.port.area.get ⟨22 + k, h⟩ = (match q.targets[k]? with
                  | some x => (match x.status with | none => 0 | some .pending => 1 | some .acked => 2 | some .lost => 3)
                  | none => 0))
            ∧ ((u.port.area.get 34).getLsbD 0 = q.unconfirmed ∧ (u.port.area.get 34).getLsbD 1 = q.noAck
              ∧ (u.port.area.get 34).getLsbD 2 = q.ackTimer.isSome ∧ (u.port.area.get 34).getLsbD 3 = q.goTimer.isSome)
            ∧ ∀ (p : Nat) (h : p < 48), 35 ≤ p → u.port.area.get ⟨p, h⟩ = 0)
        ∧ onlyChanges base s u)

/-! ## Nets and levels -/

/-- NET OPEN on a FREE net whose flag byte is 0 or 1 and whose name no other OPEN net holds, or is all zeros: the net is
OPEN with the name and flag of the transfer area and no members (R40). -/
def Obligations.NetOpenOpens : Prop :=
  ∀ (s : State) (t : Time) (r : BitVec 16) (a : BitVec 32) (n : NetNo), ready s .netOpen r a → r.toNat = n.val →
    (s.net n).isOpen = false → (s.port.area.get 8).toNat ≤ 1 →
    ((∀ k : Fin 8, s.port.area.get ⟨k.val, by omega⟩ = 0)
      ∨ ∀ m, (s.net m).isOpen = true → ∃ k : Fin 8, (s.net m).name.get k ≠ s.port.area.get ⟨k.val, by omega⟩) →
    ∃ u, exec (.netOpen t r a) s = .next u ∧ holdsAnswer s u t .netOpen r .done 0
      ∧ (u.net n).isOpen = true ∧ (u.net n).locked = (s.port.area.get 8 == 1) ∧ (u.net n).members = []
      ∧ (∀ k : Fin 8, (u.net n).name.get k = s.port.area.get ⟨k.val, by omega⟩)
      ∧ (∀ m, m ≠ n → u.net m = s.net m) ∧ onlyChanges (answerParts ++ [.netRecords]) s u

/-- MEMBER ADD that passes checks 2 to 8 of R41 puts the lowest free entry in use with the net, the station, the rights
and the clamped level, places it at the end of the net's list, answers its number and level, and hands the change to the
Planner (R41, R42). -/
def Obligations.MemberAddJoins : Prop :=
  ∀ (s : State) (t : Time) (r : BitVec 16) (a : BitVec 32) (n : NetNo) (i : StationNo) (g : Rights) (e : EntryNo),
    ready s .memberAdd r a → r.toNat = n.val → (argByte a 0).toNat = i.val → argByte a 1 = g.code →
    (s.net n).isOpen = true → (s.station i).configured = true → (s.station i).kind ≠ .cuebox →
    (∀ d ∈ (s.net n).members, ∀ m, s.member d = some m → m.station ≠ i) → (s.net n).members.length < 48 →
    s.member e = none → (∀ d, d < e → (s.member d).isSome = true) →
    let byte := (argByte a 2).toInt
    let level : Option Int := if byte = -128 then none else some (max (-48) (min 12 byte))
    ∃ u v, exec (.memberAdd t r a) s = .next u
      ∧ holdsAnswer s u t .memberAdd r .done (BitVec.ofNat 16 e.val ++ BitVec.ofInt 8 (level.getD (-128)))
      ∧ u.member e = some { net := n, station := i, rights := g, level := level }
      ∧ (∀ d, d ≠ e → u.member d = s.member d)
      ∧ u.net n = { s.net n with members := (s.net n).members ++ [e] } ∧ (∀ m, m ≠ n → u.net m = s.net m)
      ∧ v.nets = u.nets ∧ onlyChanges [.netRecords, .memberPool] s v ∧ u.plans = v.replan.plans
      ∧ onlyChanges (answerParts ++ [.netRecords, .memberPool, .plans]) s u

/-- MEMBER CHANGE on an entry in use with a rights code, its net not locked under an engaged show lock: after the flush
the rights are written and the level is kept; taking TALK away drops the station's intent in the net, and otherwise no
intent changes. Under the lock it is refused LOCKED (R44, R45, R49, R75). -/
def Obligations.MemberChangeSetsRights : Prop :=
  ∀ (s : State) (t : Time) (r : BitVec 16) (a : BitVec 32) (e : EntryNo) (m : Member) (g : Rights),
    ready s .memberChange r a → r.toNat = e.val → s.member e = some m → argByte a 0 = g.code →
    let s1 := (s.clockTo t).flushIf (s.stagesEntry e)
    let locked := s.port.showLock = true ∧ (s.net m.net).locked = true
    (locked → exec (.memberChange t r a) s = .next (answered s t .memberChange r .locked 0))
    ∧ (¬ locked →
      ∃ u, exec (.memberChange t r a) s = .next u ∧ holdsAnswer s u t .memberChange r .done 0
        ∧ u.member e = (s1.member e).map (fun x => { x with rights := g })
        ∧ (∀ d, d ≠ e → u.member d = s1.member d)
        ∧ ((m.rights ≠ .listen ∧ g = .listen) → u.intent m.station m.net = none
            ∧ ∀ j k, (j, k) ≠ (m.station, m.net) → u.intent j k = s.intent j k)
        ∧ (¬ (m.rights ≠ .listen ∧ g = .listen) →
            u.talk.intents = s.talk.intents ∧ u.talk.talkers = s.talk.talkers)
        ∧ onlyChanges (answerParts ++ [.stations, .memberPool, .staging, .intents, .talkerLists, .plans]) s u)

/-- MEMBER REMOVE frees an entry in use, takes it out of its net's list and drops its station's intent in the net
(R46, R75). NET CLOSE does so for every member of an OPEN net and makes the net FREE, unnamed and unlocked (R47). Both are
refused LOCKED on a locked net while the show lock is engaged (R49). A NET CLOSE taken as far as its first k removals has
removed the first k members in join order, leaves the net OPEN with the rest, and stays in process, its reply IN_PROGRESS;
taken on with nothing between, it leaves what the whole request does (R48; the form of the parts is the model's, log
entry 3). -/
def Obligations.MembersRemoved : Prop :=
  (∀ (s : State) (t : Time) (r : BitVec 16) (a : BitVec 32) (e : EntryNo) (m : Member),
    ready s .memberRemove r a → r.toNat = e.val → s.member e = some m →
    let s1 := (s.clockTo t).flushIf (s.stagesEntry e)
    let locked := s.port.showLock = true ∧ (s.net m.net).locked = true
    (locked → exec (.memberRemove t r a) s = .next (answered s t .memberRemove r .locked 0))
    ∧ (¬ locked →
      ∃ u, exec (.memberRemove t r a) s = .next u ∧ holdsAnswer s u t .memberRemove r .done 0
        ∧ u.member e = none ∧ (∀ d, d ≠ e → u.member d = s1.member d)
        ∧ u.net m.net = { s.net m.net with members := (s.net m.net).members.filter (· ≠ e) }
        ∧ (∀ n, n ≠ m.net → u.net n = s.net n)
        ∧ u.intent m.station m.net = none ∧ (∀ j k, (j, k) ≠ (m.station, m.net) → u.intent j k = s.intent j k)
        ∧ onlyChanges (answerParts ++ [.stations, .netRecords, .memberPool, .staging, .intents, .talkerLists, .plans])
            s u))
  ∧ (∀ (s : State) (t : Time) (r : BitVec 16) (a : BitVec 32) (n : NetNo),
    ready s .netClose r a → r.toNat = n.val → (s.net n).isOpen = true →
    (∀ e ∈ (s.net n).members, ∃ m, s.member e = some m ∧ m.net = n) →
    let s1 := (s.clockTo t).flushIf (s.stagesNet n)
    let locked := s.port.showLock = true ∧ (s.net n).locked = true
    (locked → exec (.netClose t r ⟨a, none⟩) s = .next (answered s t .netClose r .locked 0))
    ∧ (¬ locked →
      ∃ u, exec (.netClose t r ⟨a, none⟩) s = .next u ∧ holdsAnswer s u t .netClose r .done 0
        ∧ u.net n = { isOpen := false, name := Vector.replicate 8 0, locked := false, members := [] }
        ∧ (∀ k, k ≠ n → u.net k = s.net k)
        ∧ (∀ e, e ∈ (s.net n).members → u.member e = none)
        ∧ (∀ e, e ∉ (s.net n).members → u.member e = s1.member e)
        ∧ (∀ e m, e ∈ (s.net n).members → s.member e = some m → u.intent m.station n = none)
        ∧ (∀ j k, k ≠ n → u.intent j k = s.intent j k)
        ∧ onlyChanges (answerParts ++ [.stations, .netRecords, .memberPool, .staging, .intents, .talkerLists, .plans])
            s u))
  ∧ ∀ (s : State) (t : Time) (r : BitVec 16) (a : BitVec 32) (n : NetNo) (k : Nat),
    ready s .netClose r a → r.toNat = n.val → (s.net n).isOpen = true →
    ¬ (s.port.showLock = true ∧ (s.net n).locked = true) →
    (∀ e ∈ (s.net n).members, ∃ m, s.member e = some m ∧ m.net = n) → (s.net n).members.Nodup →
    let s1 := (s.clockTo t).flushIf (s.stagesNet n)
    let gone := (s.net n).members.take k
    ∃ u, exec (.netClose t r ⟨a, some k⟩) s = .next u ∧ u.now = max s.now t
      ∧ u.port.reply = .inProgress RequestKind.netClose.code r ∧ u.port.inProcess = some ⟨.netClose, r, a⟩
      ∧ u.net n = { s.net n with members := (s.net n).members.drop k } ∧ (∀ m, m ≠ n → u.net m = s.net m)
      ∧ (∀ e, e ∈ gone → u.member e = none) ∧ (∀ e, e ∉ gone → u.member e = s1.member e)
      ∧ (∀ e m, e ∈ gone → s.member e = some m → u.intent m.station n = none)
      ∧ (∀ j m, (m ≠ n ∨ ∀ e x, e ∈ gone → s.member e = some x → x.station ≠ j) → u.intent j m = s.intent j m)
      ∧ exec (.netClose t r ⟨a, none⟩) u = exec (.netClose t r ⟨a, none⟩) s
      ∧ onlyChanges (answerParts ++ [.stations, .netRecords, .memberPool, .staging, .intents, .talkerLists, .plans]) s u

/-- LEVEL ONE, and LEVEL FOUR at a multiple of 4, whose records are present: each value is clamped to its field's range
and staged at its address; a write to another group first flushes the buffer, a write into an empty buffer or after that
flush starts the 20 ms timer, and a write to the same group leaves it running; the first value as taken is answered
(R163, R164, R165). -/
def Obligations.LevelWritesStage : Prop :=
  ∀ (s : State) (t : Time) (r : BitVec 16) (a : BitVec 32) (four : Bool),
    let n := r.toNat
    let kind : RequestKind := if four then .levelFour else .levelOne
    let command : Instr := if four then .levelFour t r a else .levelOne t r a
    let count := if four then 4 else 1
    let present (x : Nat) : Prop :=
      if h : x < 384 then (s.member ⟨x, h⟩).isSome = true
      else (s.station ⟨(x - 384) % 96, Nat.mod_lt _ (by decide)⟩).configured = true
    let taken (x : Nat) (z : Int) : Int :=
      if x < 384 then (if z = -128 then -128 else max (-48) (min 12 z))
      else if x < 480 then max (-24) (min 24 z)
      else if x < 576 then max (-48) (min 0 z)
      else if x < 672 then max 0 (min 24 z)
      else max 0 (min 48 z)
    let same := ∃ w, s.port.staging = some w ∧ w.group.val = n / 8
    let s1 := match s.port.staging with
      | some w => (s.clockTo t).flushIf (decide (w.group.val ≠ n / 8))
      | none => s.clockTo t
    ready s kind r a → n < 768 → (four = true → n % 4 = 0) → (∀ k, k < count → present (n + k)) →
    ∃ u w, exec command s = .next u
      ∧ holdsAnswer s u t kind r .done (BitVec.ofInt 8 (taken n (argByte a 0).toInt) ++ 0#16)
      ∧ u.port.staging = some w ∧ w.group.val = n / 8
      ∧ (∀ j : Fin 8, w.values.get j =
          if n % 8 ≤ j.val ∧ j.val < n % 8 + count then
            some (taken (n + (j.val - n % 8)) (argByte a (j.val - n % 8)).toInt)
          else (match s.port.staging with
            | some b => if b.group.val = n / 8 then b.values.get j else none
            | none => none))
      ∧ (same → ∃ b, s.port.staging = some b ∧ w.expiry = b.expiry) ∧ (¬ same → w.expiry = max s.now t + 245760)
      ∧ onlyChanges (answerParts ++ [.staging]) s1 u

/-- What a flush applies, by LEVEL FLUSH and by the expiry of the age timer: every staged value stands in its record, the
buffer is empty, no other level has changed, and, where the plans followed the levels before, the target of every ACTIVE
slot is the coefficient of the level that its occupant has now; LEVEL FLUSH answers the number of values applied, 0 for an
empty buffer (R9, R43, R96, R166, R167). The conditions on which other requests flush: the buffer holds a level of the
station, of the entry, of an entry of the net, or a level that enters a path level of the plan (R50, R52, R108, R166). -/
def Obligations.StagedLevelsApply : Prop :=
  (∀ (s : State) (i : StationNo),
    let holds (x : Nat) : Prop :=
      ∃ w k, s.port.staging = some w ∧ w.group.val * 8 + k.val = x ∧ (w.values.get k).isSome = true
    (s.stagesStation i = true ↔
      holds (384 + i.val) ∨ holds (480 + i.val) ∨ holds (576 + i.val) ∨ holds (672 + i.val))
    ∧ (∀ e, s.stagesEntry e = true ↔ holds e.val)
    ∧ (∀ n, s.stagesNet n = true ↔ ∃ e ∈ (s.net n).members, holds e.val)
    ∧ (s.stagesPlan i = true ↔ holds (480 + i.val) ∨ holds (576 + i.val) ∨ holds (672 + i.val)
        ∨ (∃ e m, s.member e = some m ∧ m.station = i ∧ holds e.val)
        ∨ ∃ c ∈ (s.plan i).candidates, holds (384 + c.station.val)))
  ∧ ∀ (s : State) (t : Time) (r : BitVec 16) (a : BitVec 32),
    (ready s .levelFlush r a → s.port.staging = none →
      exec (.levelFlush t r a) s = .next (answered s t .levelFlush r .done 0))
    ∧ ∀ w, s.port.staging = some w →
      let staged (x : Nat) : Option Int := if x / 8 = w.group.val then w.values.get ⟨x % 8, Nat.mod_lt _ (by decide)⟩ else none
      let applied (u : State) : Prop :=
        u.port.staging = none
        ∧ (∀ e : EntryNo, u.member e = (s.member e).map fun m => { m with
            level := match staged e.val with
              | some z => if z = -128 then none else some (max (-48) (min 12 z))
              | none => m.level })
        ∧ (∀ i : StationNo, u.station i = { s.station i with
            trim := (staged (384 + i.val)).getD (s.station i).trim
            master := (staged (480 + i.val)).getD (s.station i).master
            dim := (staged (576 + i.val)).getD (s.station i).dim
            duck := (staged (672 + i.val)).getD (s.station i).duck })
        ∧ (PlansCurrent s → ∀ i, u.planInUse i = true → ∀ k o, ((u.plan i).slots.get k).use = .active o →
            ∃ c ∈ u.candidatesOf i, c.station = o ∧ ((u.plan i).slots.get k).target = coefficientOf c.level)
      (ready s .levelFlush r a →
        ∃ u, exec (.levelFlush t r a) s = .next u ∧ applied u
          ∧ holdsAnswer s u t .levelFlush r .done
              (BitVec.ofNat 8 ((allOf 8).filter fun k => (w.values.get k).isSome).length ++ 0#16)
          ∧ onlyChanges (answerParts ++ [.stations, .memberPool, .staging, .plans]) s u)
      ∧ (w.expiry ≤ max s.now t →
        ∃ u, exec (.stagingAgeExpiry t) s = .next u ∧ applied u ∧ u.now = max s.now t
          ∧ onlyChanges [.clock, .stations, .memberPool, .staging, .plans] s u)

/-! ## Talk -/

/-- REMOTE TALK that passes checks 2 to 6 of R65: the REMOTE origin expires the clamped hold after this moment; a renewal
changes the expiry alone; a new origin puts the intent in use if there was none and makes the station a talker, with a new
arrival number, unless an enabled gate is CLOSED or it talks already; hold and talker flag are answered (R55, R56, R65). -/
def Obligations.RemoteTalkAdds : Prop :=
  ∀ (s : State) (t : Time) (r : BitVec 16) (a : BitVec 32) (i : StationNo) (n : NetNo),
    ready s .remoteTalk r a → r.toNat = i.val → (argByte a 0).toNat = n.val →
    (s.station i).configured = true → (s.net n).isOpen = true → s.mayTalk i n = true → s.isUp i = true →
    (s.intent i n = none → s.talk.intents.length < 256) →
    let hold : Nat := max 1 (min 600 ((argByte a 1).toNat * 256 + (argByte a 2).toNat))
    let expiry := max s.now t + hold * 12288000
    let old : Intent := (s.intent i n).getD { station := i, net := n }
    let heard : Prop := (s.station i).gateEnable = false ∨ (s.gate i).isOpen = true
    let joins : Prop := old.remote = none ∧ old.arrival = none ∧ heard
    ∃ u x, exec (.remoteTalk t r a) s = .next u ∧ u.intent i n = some x
      ∧ holdsAnswer s u t .remoteTalk r .done
          (BitVec.ofNat 16 hold ++ (if x.arrival.isSome then (1#8) else 0#8))
      ∧ x.remote = some expiry ∧ x.key = old.key
      ∧ (joins → x.arrival = some s.talk.arrivals ∧ i ∈ u.talkersOf n
          ∧ u.talk.arrivals = min (s.talk.arrivals + 1) 4294967295)
      ∧ (old.remote.isSome = true → x.arrival = old.arrival ∧ u.plans = s.plans
          ∧ u.talk.talkers = s.talk.talkers ∧ u.talk.arrivals = s.talk.arrivals)
      ∧ (heard → old.arrival.isSome = true → x.arrival = old.arrival)
      ∧ (¬ heard → old.remote = none → x.arrival = none)
      ∧ (∀ j m, (j, m) ≠ (i, n) → u.intent j m = s.intent j m) ∧ (∀ m, m ≠ n → u.talkersOf m = s.talkersOf m)
      ∧ onlyChanges (answerParts ++ [.intents, .talkerLists, .arrivalCounter, .plans]) s u

/-- The end of a REMOTE origin, by REMOTE RELEASE or at its expiry time: with a KEY origin the intent stays with its
talker flag and number; without one it is freed, and the station leaves the talker list. The expiry alone raises
REMOTE_EXPIRED; a release of a pair without a REMOTE origin is refused NO_RECORD, and an expiry before its time changes
nothing but the clock (R54, R66, R67; the last is the model's choice, log entry 6). -/
def Obligations.RemoteOriginEnds : Prop :=
  ∀ (s : State) (t : Time) (r : BitVec 16) (a : BitVec 32) (i : StationNo) (n : NetNo),
    let ended (u : State) (x : Intent) : Prop :=
      (x.key.isSome = true → u.intent i n = some { x with remote := none } ∧ u.talk.talkers = s.talk.talkers
        ∧ u.plans = s.plans)
      ∧ (x.key = none → u.intent i n = none ∧ (x.arrival.isSome = true → i ∉ u.talkersOf n))
      ∧ (∀ j m, (j, m) ≠ (i, n) → u.intent j m = s.intent j m) ∧ (∀ m, m ≠ n → u.talkersOf m = s.talkersOf m)
    (ready s .remoteRelease r a → r.toNat = i.val → (argByte a 0).toNat = n.val →
      (∀ x, s.intent i n = some x → x.remote.isSome = true →
        ∃ u, exec (.remoteRelease t r a) s = .next u ∧ holdsAnswer s u t .remoteRelease r .done 0 ∧ ended u x
          ∧ onlyChanges (answerParts ++ [.intents, .talkerLists, .plans]) s u)
      ∧ ((∀ x, s.intent i n = some x → x.remote = none) →
        exec (.remoteRelease t r a) s = .next (answered s t .remoteRelease r .noRecord 0)))
    ∧ ∀ x e, s.intent i n = some x → x.remote = some e →
      (e ≤ max s.now t →
        ∃ u, exec (.remoteExpiry t i n) s = .next u ∧ ended u x ∧ u.now = max s.now t
          ∧ u.notices = (s.raise .remoteExpired i.val 0).notices
          ∧ onlyChanges [.clock, .intents, .talkerLists, .plans, .pendingNotices] s u)
      ∧ (max s.now t < e → exec (.remoteExpiry t i n) s = .next { s with now := max s.now t })

/-! ## Calls -/

/-- CALL PLACE that passes checks 2 to 7 of R78 puts the lowest free entry in use, RINGING with origin HOST and its ring
expiry 30 s after this moment, and answers its number. CALL END of an entry with the named caller and callee, and the ring
expiry of a RINGING call, free the entry, raise CALL_ENDED with the entry and the reason, and hand the end of a CONNECTED
call to the Planner (R78, R82, R83, R84). CALL READ answers the entry (R88). -/
def Obligations.CallTableCommands : Prop :=
  ∀ (s : State) (t : Time) (r : BitVec 16) (a : BitVec 32) (c : CallNo),
    let gone (parts : List Part) (e : Call) (reason : Nat) (u : State) : Prop :=
      u.call c = none ∧ (∀ d, d ≠ c → u.call d = s.call d)
      ∧ u.notices = (s.raise .callEnded c.val reason).notices
      ∧ (∀ x, e.state = .ringing x → u.plans = s.plans)
      ∧ (∀ x, e.state = .connected x → ∃ v, v.calls = u.calls ∧ onlyChanges [.clock, .calls] s v ∧ u.plans = v.replan.plans)
      ∧ onlyChanges (parts ++ [.calls, .plans, .pendingNotices]) s u
    (∀ i x : StationNo, ready s .callPlace r a → r.toNat = i.val → (argByte a 0).toNat = x.val → x ≠ i →
      (∀ j, j = i ∨ j = x → (s.station j).configured = true ∧ (s.station j).kind ≠ .cuebox ∧ s.isUp j = true
        ∧ ∀ d e, s.call d = some e → e.caller ≠ j ∧ e.callee ≠ j) →
      s.call c = none → (∀ d, d < c → (s.call d).isSome = true) →
      ∃ u, exec (.callPlace t r a) s = .next u
        ∧ holdsAnswer s u t .callPlace r .done (BitVec.ofNat 8 c.val ++ 0#16)
        ∧ u.call c = some { caller := i, callee := x, origin := .host, state := .ringing (max s.now t + 368640000) }
        ∧ (∀ d, d ≠ c → u.call d = s.call d) ∧ onlyChanges (answerParts ++ [.calls]) s u)
    ∧ (∀ e, s.call c = some e → ready s .callEnd r a → r.toNat = c.val →
      ((argByte a 0).toNat = e.caller.val → (argByte a 1).toNat = e.callee.val →
        ∃ u, exec (.callEnd t r a) s = .next u ∧ holdsAnswer s u t .callEnd r .done 0 ∧ gone answerParts e 4 u)
      ∧ (¬ ((argByte a 0).toNat = e.caller.val ∧ (argByte a 1).toNat = e.callee.val) →
        exec (.callEnd t r a) s = .next (answered s t .callEnd r .noRecord 0)))
    ∧ (∀ e x, s.call c = some e → e.state = .ringing x → x ≤ max s.now t →
      ∃ u, exec (.ringExpiry t c) s = .next u ∧ u.now = max s.now t ∧ gone [.clock] e 2 u)
    ∧ (ready s .callRead r a → r.toNat = c.val →
      exec (.callRead t r a) s = .next (answered s t .callRead r .done (match s.call c with
        | none => 0xFF#8 ++ 0xFF#8 ++ 0#8
        | some e => BitVec.ofNat 8 e.caller.val ++ BitVec.ofNat 8 e.callee.val
            ++ BitVec.ofNat 8 ((match e.state with | .ringing _ => 1 | .connected _ => 2)
              + (match e.origin with | .key => 0 | .host => 4)))))

/-- A press of a CALL or ANSWER key by a station party to no call, or party to the call of entry c alone: a CALL key
places a call where the other station can be called and an entry is free; for a party the rows of R79 and R80 apply. A
refused press changes nothing but the key's deny mark, 2 s from the arrival time, and its stale mark (R15, R16, R77, R79,
R80, R81). -/
def Obligations.CallKeyPresses : Prop :=
  ∀ (s : State) (i : StationNo) (k : KeyNo) (at_ : Time),
    let refused (u : State) : Prop :=
      u.key i k = { s.key i k with stale := false, deny := some (at_ + 24576000) } ∧ onlyChanges [.stations] s u
      ∧ (∀ j l, (j, l) ≠ (i, k) → u.key j l = s.key j l)
    let ends (c : CallNo) (reason : Nat) (u : State) : Prop :=
      u.call c = none ∧ u.notices = (s.raise .callEnded c.val reason).notices
      ∧ u.key i k = { s.key i k with stale := false } ∧ onlyChanges [.stations, .calls, .plans, .pendingNotices] s u
    let connects (c : CallNo) (e : Call) (u : State) : Prop :=
      u.call c = some { e with state := .connected s.talk.arrivals }
      ∧ u.talk.arrivals = min (s.talk.arrivals + 1) 4294967295
      ∧ u.key i k = { s.key i k with stale := false } ∧ onlyChanges [.stations, .calls, .plans, .arrivalCounter] s u
    let u := s.dispatchPress i k at_
    (∀ x, (s.key i k).binding = .call x → x ≠ i →
      ((∀ d e, s.call d = some e → e.caller ≠ i ∧ e.callee ≠ i) →
        let can := (s.station x).configured = true ∧ (s.station x).kind ≠ .cuebox ∧ s.isUp x = true
          ∧ (∀ d e, s.call d = some e → e.caller ≠ x ∧ e.callee ≠ x)
        (∀ c, can → s.call c = none → (∀ d, d < c → (s.call d).isSome = true) →
          u.call c = some { caller := i, callee := x, origin := .key, state := .ringing (s.now + 368640000) }
          ∧ (∀ d, d ≠ c → u.call d = s.call d)
          ∧ u.key i k = { s.key i k with stale := false } ∧ onlyChanges [.stations, .calls] s u)
        ∧ ((¬ can ∨ ∀ c, (s.call c).isSome = true) → refused u))
      ∧ (∀ c e, s.call c = some e → (∀ d f, s.call d = some f → f.caller = i ∨ f.callee = i → d = c) →
        ((e.caller = i ∧ e.callee = x) → (∀ y, e.state = .ringing y → ends c 1 u) ∧ ∀ y, e.state = .connected y → ends c 3 u)
        ∧ ((e.callee = i ∧ e.caller = x) →
            (∀ y, e.state = .ringing y → connects c e u) ∧ ∀ y, e.state = .connected y → ends c 3 u)
        ∧ ((e.caller = i ∧ e.callee ≠ x) ∨ (e.callee = i ∧ e.caller ≠ i ∧ e.caller ≠ x) → refused u)))
    ∧ ((s.key i k).binding = .answer →
      ((∀ d e, s.call d = some e → e.caller ≠ i ∧ e.callee ≠ i) → refused u)
      ∧ (∀ c e, s.call c = some e → (∀ d f, s.call d = some f → f.caller = i ∨ f.callee = i → d = c) →
        ((e.caller = i ∨ e.callee = i) → ∀ y, e.state = .connected y → ends c 3 u)
        ∧ (e.callee = i → ∀ y, e.state = .ringing y → connects c e u)
        ∧ (e.caller = i → e.callee ≠ i → ∀ y, e.state = .ringing y → refused u)))

/-! ## Talk keys and the all-call -/

/-- A press of a key bound TALK. Where the press would add a KEY origin it is refused if the net is FREE, the station has
no TALK right, or it has no intent and the pool is full, and else adds the origin with the key, the mode and the phase of
the mode; then the talker rule makes the station a talker or not. A press that finds a LATCHED origin of its key in mode
LATCHING or AUTO removes it, and AUTO sets the release-ignore mark; any other press that finds its origin leaves it (R15,
R16, R55, R58, R59, R60, R61). -/
def Obligations.TalkKeyPresses : Prop :=
  ∀ (s : State) (i : StationNo) (k : KeyNo) (n : NetNo) (mode : TalkMode) (at_ : Time),
    (s.key i k).binding = .talk n mode →
    let u := s.dispatchPress i k at_
    let mine (o : KeyOrigin) : Prop := ∃ x, s.intent i n = some x ∧ x.key = some o ∧ o.key = k
    let old : Intent := (s.intent i n).getD { station := i, net := n }
    let phase : KeyPhase := if mode = .latching then .latched else .held at_
    let may := (s.net n).isOpen = true ∧ s.mayTalk i n = true ∧ (s.intent i n = none → s.talk.intents.length < 256)
    let heard := (s.station i).gateEnable = false ∨ (s.gate i).isOpen = true
    ((∀ o, ¬ mine o) →
      (¬ may → u.key i k = { s.key i k with stale := false, deny := some (at_ + 24576000) }
        ∧ (∀ j l, (j, l) ≠ (i, k) → u.key j l = s.key j l) ∧ onlyChanges [.stations] s u)
      ∧ (may → s.isUp i = true → ∃ x, u.intent i n = some x
        ∧ x.key = some { key := k, mode := mode, phase := phase } ∧ x.remote = old.remote
        ∧ (heard → old.arrival = none → x.arrival = some s.talk.arrivals ∧ i ∈ u.talkersOf n
            ∧ u.talk.arrivals = min (s.talk.arrivals + 1) 4294967295)
        ∧ (heard → old.arrival.isSome = true → x.arrival = old.arrival ∧ u.talk.arrivals = s.talk.arrivals)
        ∧ (¬ heard → x.arrival = none ∧ u.talk.arrivals = s.talk.arrivals)
        ∧ u.key i k = { s.key i k with stale := false }
        ∧ onlyChanges [.stations, .intents, .talkerLists, .arrivalCounter, .plans] s u))
    ∧ (∀ o, mine o →
      u.key i k = { s.key i k with stale := false }
      ∧ ((mode = .latching ∨ (mode = .auto ∧ o.phase = .latched)) →
          (old.remote = none → u.intent i n = none ∧ (old.arrival.isSome = true → i ∉ u.talkersOf n))
          ∧ (old.remote.isSome = true → u.intent i n = some { old with key := none } ∧ u.talk.talkers = s.talk.talkers)
          ∧ u.ignoresRelease i k = (if mode = .auto then true else s.ignoresRelease i k)
          ∧ onlyChanges [.stations, .intents, .talkerLists, .releaseIgnore, .plans] s u)
      ∧ ((mode = .momentary ∨ (mode = .auto ∧ o.phase ≠ .latched)) → onlyChanges [.stations] s u))

/-- A release of a key: one that carries a stale mark loses it and nothing else happens; without one, MOMENTARY removes
the KEY origin of the key, AUTO clears a set release-ignore mark, latches an origin held less than 500 ms and removes one
held longer, and every other case changes nothing (R15, R59, R60, R62). -/
def Obligations.KeyReleases : Prop :=
  ∀ (s : State) (i : StationNo) (k : KeyNo) (at_ : Time),
    let u := s.dispatchRelease i k at_
    ((s.key i k).stale = true → u.key i k = { s.key i k with stale := false }
      ∧ (∀ j l, (j, l) ≠ (i, k) → u.key j l = s.key j l) ∧ onlyChanges [.stations] s u)
    ∧ ((s.key i k).stale = false →
      ((∀ n m, (s.key i k).binding ≠ .talk n m) → (s.key i k).binding ≠ .allCall → u = s)
      ∧ ∀ n mode, (s.key i k).binding = .talk n mode →
        let removed (x : Intent) : Prop :=
          (x.remote = none → u.intent i n = none ∧ (x.arrival.isSome = true → i ∉ u.talkersOf n))
          ∧ (x.remote.isSome = true → u.intent i n = some { x with key := none } ∧ u.talk.talkers = s.talk.talkers)
          ∧ onlyChanges [.intents, .talkerLists, .plans] s u
        ((mode = .latching → u = s)
        ∧ (mode = .auto → s.ignoresRelease i k = true →
            u.ignoresRelease i k = false ∧ onlyChanges [.releaseIgnore] s u)
        ∧ (mode ≠ .latching → (mode = .auto → s.ignoresRelease i k = false) →
          ((∀ x o, s.intent i n = some x → x.key = some o → o.key ≠ k) → u = s)
          ∧ ∀ x o, s.intent i n = some x → x.key = some o → o.key = k →
            (mode = .momentary → removed x)
            ∧ (mode = .auto → o.phase = .latched → u = s)
            ∧ ∀ p, mode = .auto → o.phase = .held p →
              (at_ - p < 6144000 → u.intent i n = some { x with key := some { o with phase := .latched } }
                ∧ onlyChanges [.intents] s u)
              ∧ (6144000 ≤ at_ - p → removed x))))

/-- A press of an ALLCALL key makes an idle all-call active, with the station, the key and a new arrival number, and is
refused while one is active, whoever owns it. The release of the owning key by the owner ends it; any other release of an
ALLCALL key changes nothing (R15, R16, R70, R71). -/
def Obligations.AllCallKeys : Prop :=
  ∀ (s : State) (i : StationNo) (k : KeyNo) (at_ : Time), (s.key i k).binding = .allCall →
    let u := s.dispatchPress i k at_
    let w := s.dispatchRelease i k at_
    (s.talk.allCall = none →
      u.talk.allCall = some { owner := i, key := k, arrival := s.talk.arrivals }
      ∧ u.talk.arrivals = min (s.talk.arrivals + 1) 4294967295
      ∧ u.key i k = { s.key i k with stale := false }
      ∧ onlyChanges [.stations, .allCall, .arrivalCounter, .plans] s u)
    ∧ (∀ x, s.talk.allCall = some x →
      u.key i k = { s.key i k with stale := false, deny := some (at_ + 24576000) } ∧ onlyChanges [.stations] s u)
    ∧ ((s.key i k).stale = false →
      (∀ x, s.talk.allCall = some x → x.owner = i → x.key = k →
        w.talk.allCall = none ∧ onlyChanges [.allCall, .plans] s w)
      ∧ ((∀ x, s.talk.allCall = some x → ¬ (x.owner = i ∧ x.key = k)) → w = s))

/-! ## Cues -/

/-- CUE DEFINE of a VACANT entry whose transfer area passes checks 3 to 7 of R126: the entry is STAGED with the definition
of the area, its ack window at most 600 and its go display in 1..10, and both are answered (R126, R127, R176, R179). -/
def Obligations.CueDefineStages : Prop :=
  ∀ (s : State) (t : Time) (r : BitVec 16) (a : BitVec 32) (c : CueNo) (targets : List StationNo),
    let byte (n : Nat) : Nat := if h : n < 48 then (s.port.area.get ⟨n, h⟩).toNat else 0
    let flag (k : Nat) : Bool := (s.port.area.get 4).getLsbD k
    let number := byte 1 * 256 + byte 2
    ready s .cueDefine r a → r.toNat = c.val → s.cue c = none →
    byte 0 ≤ 15 → number ≤ 9999 → byte 3 ≤ 9 → byte 4 ≤ 15 →
    targets.length = byte 8 → 1 ≤ byte 8 → byte 8 ≤ 12 →
    (∀ (k : Nat) (h : k < targets.length), byte (9 + k) = (targets[k]).val) → targets.Nodup →
    (∀ i ∈ targets, (s.station i).configured = true) →
    (∀ d q, s.cue d = some q → ¬ (q.department = byte 0 ∧ q.number = number ∧ q.point = byte 3)) →
    let window := min (byte 5 * 256 + byte 6) 600
    let display := max 1 (min 10 (byte 7))
    ∃ u, exec (.cueDefine t r a) s = .next u
      ∧ holdsAnswer s u t .cueDefine r .done (BitVec.ofNat 16 window ++ BitVec.ofNat 8 display)
      ∧ u.cue c = some
        { state := .staged, department := byte 0, number := number, point := byte 3
          policy := if flag 0 then .any else .all, direct := flag 1, repeatable := flag 2, locked := flag 3
          ackWindow := window, goDisplay := display
          targets := targets.map fun i => { station := i, status := none }
          unconfirmed := false, noAck := false, ackTimer := none, goTimer := none }
      ∧ (∀ d, d ≠ c → u.cue d = s.cue d) ∧ onlyChanges (answerParts ++ [.cues]) s u

/-- CUE STANDBY. A STAGED cue whose targets all have room in their queues: one entry joins each target's queue, PENDING
for an UP station and LOST for another, not shown; the statuses follow; the ack timer starts unless the window is 0; the
cue is in STANDBY; the number of LOST targets is answered. With a full queue it is refused QUEUE_FULL, a standing cue
ALREADY, a cue in GO BUSY and a VACANT entry NO_RECORD (R128, R129, R145). -/
def Obligations.CueStandbyJoinsQueues : Prop :=
  ∀ (s : State) (t : Time) (r : BitVec 16) (a : BitVec 32) (c : CueNo), ready s .cueStandby r a → r.toNat = c.val →
    let command := Instr.cueStandby t r a
    let refused (st : Status) := exec command s = .next (answered s t .cueStandby r st 0)
    (s.cue c = none → refused .noRecord)
    ∧ ∀ q, s.cue c = some q →
      (q.state = .standby ∨ q.state = .ready → refused .already) ∧ (q.state = .go → refused .busy)
      ∧ (q.state = .staged → (∃ x ∈ q.targets, 4 ≤ (s.lamp x.station).queue.length) → refused .queueFull)
      ∧ (q.state = .staged → (∀ x ∈ q.targets, (s.lamp x.station).queue.length < 4) →
          (q.targets.map Target.station).Nodup →
          let status (i : StationNo) : EntryStatus := if s.isUp i then .pending else .lost
          ∃ u, exec command s = .next u
            ∧ holdsAnswer s u t .cueStandby r .done
                (BitVec.ofNat 8 (q.targets.filter fun x => !s.isUp x.station).length ++ 0#16)
            ∧ u.cue c = some { q with
                state := .standby
                targets := q.targets.map fun x => { x with status := some (status x.station) }
                ackTimer := if q.ackWindow = 0 then none else some (max s.now t + q.ackWindow * 12288000) }
            ∧ (∀ d, d ≠ c → u.cue d = s.cue d)
            ∧ (∀ x ∈ q.targets, (u.lamp x.station).queue = (s.lamp x.station).queue
                ++ [{ cue := c, status := status x.station, shown := false, listed := false }])
            ∧ (∀ i, (u.lamp i).goLamp = (s.lamp i).goLamp)
            ∧ (∀ i, i ∉ q.targets.map Target.station → u.lamp i = s.lamp i)
            ∧ onlyChanges (answerParts ++ [.cues, .lamps]) s u)

/-- CUE GO. From STANDBY, and from STAGED with the direct flag, it is taken with the unconfirmed flag set, from READY with
it clear: the ack timer stops, the statuses stay as they are, the cue's entries leave the targets' queues, each target's
go-lamp timer runs to the later of its end and now plus the go display, and the cue is in GO until then. Otherwise it is
refused NO_RECORD, NOT_STANDING or BUSY (R132, R133, R146, R152). -/
def Obligations.CueGoGives : Prop :=
  ∀ (s : State) (t : Time) (r : BitVec 16) (a : BitVec 32) (c : CueNo), ready s .cueGo r a → r.toNat = c.val →
    let command := Instr.cueGo t r a
    let refused (st : Status) := exec command s = .next (answered s t .cueGo r st 0)
    (s.cue c = none → refused .noRecord)
    ∧ ∀ q, s.cue c = some q →
      (q.state = .staged → q.direct = false → refused .notStanding) ∧ (q.state = .go → refused .busy)
      ∧ (q.state = .standby ∨ q.state = .ready ∨ (q.state = .staged ∧ q.direct = true) →
          let unconfirmed := q.state ≠ .ready
          let endTime := max s.now t + q.goDisplay * 12288000
          ∃ u, exec command s = .next u
            ∧ holdsAnswer s u t .cueGo r .done ((if unconfirmed then (1#8) else 0#8) ++ 0#16)
            ∧ u.cue c = some { q with
                state := .go, unconfirmed := decide unconfirmed, ackTimer := none, goTimer := some endTime }
            ∧ (∀ d, d ≠ c → u.cue d = s.cue d)
            ∧ (∀ x ∈ q.targets, u.lamp x.station =
                { queue := (s.lamp x.station).queue.filter fun e => e.cue != c
                  goLamp := some (match (s.lamp x.station).goLamp with | none => endTime | some e => max e endTime) })
            ∧ (∀ i, i ∉ q.targets.map Target.station → u.lamp i = s.lamp i)
            ∧ onlyChanges (answerParts ++ [.cues, .lamps]) s u)

/-- CUE CANCEL stands a standing cue down: the ack timer stops, its entries leave the queues, its statuses become absent,
the no-ack mark is cleared and it is STAGED (R135). CUE RETIRE makes a STAGED cue VACANT, and is refused LOCKED for a
locked cue while the show lock is engaged (R137, R138). CUE SUMMARY answers one bit for each ACKED and each LOST position
(R143). -/
def Obligations.CueCancelRetireSummary : Prop :=
  ∀ (s : State) (t : Time) (r : BitVec 16) (a : BitVec 32) (c : CueNo) (q : Cue), r.toNat = c.val → s.cue c = some q →
    (ready s .cueCancel r a →
      (q.state = .staged → exec (.cueCancel t r a) s = .next (answered s t .cueCancel r .notStanding 0))
      ∧ (q.state = .go → exec (.cueCancel t r a) s = .next (answered s t .cueCancel r .tooLate 0))
      ∧ (q.state = .standby ∨ q.state = .ready →
        ∃ u, exec (.cueCancel t r a) s = .next u ∧ holdsAnswer s u t .cueCancel r .done 0
          ∧ u.cue c = some { q with
              state := .staged, ackTimer := none, noAck := false
              targets := q.targets.map fun x => { x with status := none } }
          ∧ (∀ d, d ≠ c → u.cue d = s.cue d)
          ∧ (∀ i, u.lamp i = if i ∈ q.targets.map Target.station then
              { s.lamp i with queue := (s.lamp i).queue.filter fun e => e.cue != c } else s.lamp i)
          ∧ onlyChanges (answerParts ++ [.cues, .lamps]) s u))
    ∧ (ready s .cueRetire r a →
      let protected_ := s.port.showLock = true ∧ q.locked = true
      (protected_ → exec (.cueRetire t r a) s = .next (answered s t .cueRetire r .locked 0))
      ∧ (¬ protected_ →
        (q.state = .standby ∨ q.state = .ready →
          exec (.cueRetire t r a) s = .next (answered s t .cueRetire r .active 0))
        ∧ (q.state = .go → exec (.cueRetire t r a) s = .next (answered s t .cueRetire r .busy 0))
        ∧ (q.state = .staged →
          ∃ u, exec (.cueRetire t r a) s = .next u ∧ holdsAnswer s u t .cueRetire r .done 0 ∧ u.cue c = none
            ∧ (∀ d, d ≠ c → u.cue d = s.cue d) ∧ onlyChanges (answerParts ++ [.cues]) s u)))
    ∧ (ready s .cueSummary r a →
      ∃ v : BitVec 24, exec (.cueSummary t r a) s = .next (answered s t .cueSummary r .done v)
        ∧ ∀ k : Fin 12,
          (v.getLsbD (12 + k.val) = true ↔ ∃ x, q.targets[k.val]? = some x ∧ x.status = some .acked)
          ∧ (v.getLsbD k.val = true ↔ ∃ x, q.targets[k.val]? = some x ∧ x.status = some .lost))

/-- The timers whose end acts when the clock has reached it and not before (the latter by log entry 6): the ack timer
stops, and marks a cue in STANDBY and raises CUE_NOACK (R131); the go timer's end takes a repeatable cue back to STAGED
and makes any other VACANT, and raises CUE_DONE with the unconfirmed flag (R134); the go-lamp timer stops (R152); the deny
mark is removed (R16). -/
def Obligations.TimersEnd : Prop :=
  ∀ (s : State) (t : Time),
    let now := max s.now t
    let early : State := { s with now := now }
    (∀ c q e, s.cue c = some q → q.ackTimer = some e →
      (now < e → exec (.ackTimerExpiry t c) s = .next early)
      ∧ (e ≤ now → ∃ u, exec (.ackTimerExpiry t c) s = .next u ∧ u.now = now
        ∧ u.cue c = some { q with ackTimer := none, noAck := if q.state = .standby then true else q.noAck }
        ∧ (∀ d, d ≠ c → u.cue d = s.cue d)
        ∧ u.notices = (if q.state = .standby then (s.raise .cueNoack c.val 0).notices else s.notices)
        ∧ onlyChanges [.clock, .cues, .pendingNotices] s u))
    ∧ (∀ c q e, s.cue c = some q → q.goTimer = some e →
      (now < e → exec (.goTimerEnd t c) s = .next early)
      ∧ (e ≤ now → ∃ u, exec (.goTimerEnd t c) s = .next u ∧ u.now = now
        ∧ u.cue c = (if q.repeatable then some { q with
              state := .staged, goTimer := none, unconfirmed := false, noAck := false
              targets := q.targets.map fun x => { x with status := none } } else none)
        ∧ (∀ d, d ≠ c → u.cue d = s.cue d)
        ∧ u.notices = (s.raise .cueDone c.val (if q.unconfirmed then 1 else 0)).notices
        ∧ onlyChanges [.clock, .cues, .pendingNotices] s u))
    ∧ (∀ i e, (s.lamp i).goLamp = some e →
      (now < e → exec (.goLampExpiry t i) s = .next early)
      ∧ (e ≤ now → ∃ u, exec (.goLampExpiry t i) s = .next u ∧ u.now = now
        ∧ u.lamp i = { s.lamp i with goLamp := none } ∧ (∀ j, j ≠ i → u.lamp j = s.lamp j)
        ∧ onlyChanges [.clock, .lamps] s u))
    ∧ (∀ i k e, (s.key i k).deny = some e →
      (now < e → exec (.denyMarkExpiry t i k) s = .next early)
      ∧ (e ≤ now → ∃ u, exec (.denyMarkExpiry t i k) s = .next u ∧ u.now = now
        ∧ u.key i k = { s.key i k with deny := none }
        ∧ { u.station i with keys := (s.station i).keys } = s.station i
        ∧ (∀ j l, (j, l) ≠ (i, k) → u.key j l = s.key j l) ∧ (∀ j, j ≠ i → u.station j = s.station j)
        ∧ onlyChanges [.clock, .stations] s u))

/-- A press of a key bound STANDBY or GO to a cue does what the request does when the request would be taken, and a press
of a STANDBY key on a standing cue does what CUE CANCEL does; a press that is refused leaves the cues and lamps and sets
the deny mark, 2 s from the arrival time (R16, R129, R132, R139). -/
def Obligations.CueKeysActAsRequests : Prop :=
  ∀ (s : State) (i : StationNo) (k : KeyNo) (at_ : Time) (c : CueNo) (r : BitVec 16) (a : BitVec 32) (v : State)
    (st : Status) (value : BitVec 24), r.toNat = c.val →
    let u := s.dispatchPress i k at_
    let follows : Prop :=
      (st = .done → u.cues = v.cues ∧ u.lamps = v.lamps ∧ u.key i k = { s.key i k with stale := false }
        ∧ onlyChanges [.stations, .cues, .lamps] s u)
      ∧ (st ≠ .done → u.key i k = { s.key i k with stale := false, deny := some (at_ + 24576000) }
        ∧ onlyChanges [.stations] s u)
    ((s.key i k).binding = .go c → ready s .cueGo r a →
      exec (.cueGo s.now r a) s = .next v → v.port.reply = .completed st RequestKind.cueGo.code r value → follows)
    ∧ ((s.key i k).binding = .standby c → (∀ q, s.cue c = some q → q.state ≠ .standby ∧ q.state ≠ .ready) →
      ready s .cueStandby r a →
      exec (.cueStandby s.now r a) s = .next v → v.port.reply = .completed st RequestKind.cueStandby.code r value →
      follows)
    ∧ ((s.key i k).binding = .standby c → (∀ q, s.cue c = some q → q.state = .standby ∨ q.state = .ready) →
      s.cue c ≠ none → ready s .cueCancel r a →
      exec (.cueCancel s.now r a) s = .next v → v.port.reply = .completed st RequestKind.cueCancel.code r value →
      follows)

/-- A press of an ACK key lands on the oldest entry that is PENDING and shown, makes it ACKED and reports it, so that the
cue's status for the station is ACKED and the cue is READY where that meets its policy; with no such entry it has no effect
but on the stale mark, and no ACK press sets a deny mark (R15, R130, R148). -/
def Obligations.AckPressLands : Prop :=
  ∀ (s : State) (i : StationNo) (k : KeyNo) (at_ : Time), (s.key i k).binding = .ack →
    let u := s.dispatchPress i k at_
    let lands (e : QueueEntry) : Prop := e.status = .pending ∧ e.shown = true
    u.key i k = { s.key i k with stale := false }
    ∧ ((∀ e ∈ (s.lamp i).queue, ¬ lands e) → onlyChanges [.stations] s u)
    ∧ ∀ older e younger, (s.lamp i).queue = older ++ e :: younger → (∀ d ∈ older, ¬ lands d) → lands e →
      (∀ d ∈ older ++ younger, d.cue ≠ e.cue) →
      (u.lamp i).queue = older ++ { e with status := .acked } :: younger ∧ (u.lamp i).goLamp = (s.lamp i).goLamp
      ∧ (∀ j, j ≠ i → u.lamp j = s.lamp j) ∧ (∀ d, d ≠ e.cue → u.cue d = s.cue d)
      ∧ (∀ q, s.cue e.cue = some q → q.state = .standby ∨ q.state = .ready →
          let targets := q.targets.map fun x => if x.station = i then { x with status := some .acked } else x
          let met := match q.policy with
            | .all => ∀ x ∈ targets, x.status = some .acked
            | .any => ∃ x ∈ targets, x.status = some .acked
          (met → u.cue e.cue = some { q with state := .ready, targets := targets })
          ∧ (¬ met → u.cue e.cue = some { q with state := .standby, targets := targets }))
      ∧ onlyChanges [.stations, .lamps, .cues] s u

/-! ## The station buses -/

/-- The tally of a key: FAST while it carries a deny mark, and else that of its binding (R17, R64, R87, R140, R151). -/
def Obligations.TalliesShowState : Prop :=
  ∀ (s : State) (i : StationNo) (k : KeyNo),
    ((s.key i k).deny.isSome = true → s.tally i k = .fast)
    ∧ ((s.key i k).deny = none →
      ((s.key i k).binding = .none → s.tally i k = .off)
      ∧ (∀ n m, (s.key i k).binding = .talk n m →
          ((s.net n).isOpen = false ∨ s.intent i n = none → s.tally i k = .off)
          ∧ ∀ x, (s.net n).isOpen = true → s.intent i n = some x →
              s.tally i k = if x.arrival.isSome then .on else .flash)
      ∧ (∀ c e, s.callOf i = some (c, e) →
          (∀ x, (s.key i k).binding = .call x → e.other i = x →
            s.tally i k = (match e.state with | .ringing _ => .flash | .connected _ => .on))
          ∧ (∀ x, (s.key i k).binding = .call x → e.other i ≠ x → s.tally i k = .off)
          ∧ ((s.key i k).binding = .answer → s.tally i k = (match e.state with
              | .connected _ => .on
              | .ringing _ => if e.callee = i then .flash else .off)))
      ∧ (s.callOf i = none → ((s.key i k).binding = .answer ∨ ∃ x, (s.key i k).binding = .call x) → s.tally i k = .off)
      ∧ ((s.key i k).binding = .allCall →
          (s.tally i k = .on ↔ ∃ x, s.talk.allCall = some x ∧ x.owner = i) ∧ (s.tally i k ≠ .on → s.tally i k = .off))
      ∧ (∀ c, (s.key i k).binding = .standby c →
          (s.cue c = none → s.tally i k = .off)
          ∧ ∀ q, s.cue c = some q → s.tally i k = (match q.state with
            | .staged | .go => .off
            | .standby => if q.noAck then .fast else .flash
            | .ready => .on))
      ∧ (∀ c, (s.key i k).binding = .go c → (s.tally i k = .on ↔ ∃ q, s.cue c = some q ∧ q.state = .go)
          ∧ (s.tally i k ≠ .on → s.tally i k = .off))
      ∧ ((s.key i k).binding = .ack →
          (s.tally i k = .on ↔ ∃ e ∈ (s.lamp i).queue, e.status = .pending ∧ e.shown = true)
          ∧ (s.tally i k ≠ .on → s.tally i k = .off)))

/-- The poll to a station: 80h plus its bus address; the lamp byte, with the standby lamp in bits 0..1, the go lamp in bit
2, the call field in bits 3..4, the all-call bit in bit 5 and zeros above; two bits for each key's tally; and a check byte
that makes the five sum to 0 mod 256 (R23, R25, R34, R180). -/
def Obligations.PollCarriesState : Prop :=
  ∀ (s : State) (i : StationNo),
    let p := s.pollBytes i
    let lamp := p.get 1
    p.get 0 = 0x80#8 + BitVec.ofNat 8 (addressOf i).val
    ∧ lamp.extractLsb' 0 2 = (if ∃ e ∈ (s.lamp i).queue, e.status = .pending then 2#2
        else if (s.lamp i).queue = [] then 0#2 else 1#2)
    ∧ lamp.getLsbD 2 = (s.lamp i).goLamp.isSome
    ∧ lamp.extractLsb' 3 2 = (match s.callOf i with
        | none => 0#2
        | some (_, e) => match e.state with
          | .connected _ => 3#2
          | .ringing _ => if e.caller = i then 1#2 else 2#2)
    ∧ (lamp.getLsbD 5 = true ↔ ∃ x, s.talk.allCall = some x ∧ x.owner ≠ i ∧ s.isUp i = true
        ∧ (s.station i).configured = true ∧ (s.station i).kind ≠ .cuebox)
    ∧ lamp.extractLsb' 6 2 = 0#2
    ∧ (∀ k : KeyNo, ((if k.val < 4 then p.get 2 else p.get 3).extractLsb' (2 * (k.val % 4)) 2).toNat
        = (s.tally i k).code.toNat)
    ∧ p.get 0 + p.get 1 + p.get 2 + p.get 3 + p.get 4 = 0

/-- The phases of a slot (R22, R24, R35, R147): a poll completely sent opens the window, deasserts the driver enable, and
after a FLASH poll marks shown the entries on its list that are still PENDING; a window that closes and a reply that pauses
begin the guard; a fourth character ends the reply, gives its arrival time and begins the guard; a character in the guard
after a reply is an extra one. While the poll is sent the line carries its five bytes, each a start bit at zero, eight data
bits, least significant first, the parity bit of the mode and a stop bit at one, and nothing at any other time (R20). When
the character that BUS STOP left on the line is out the driver is enabled only if a new poll is being sent (R33; the
meeting of a new poll with that character is the model's choice, log entry 14). -/
def Obligations.SlotPhases : Prop :=
  ∀ (s : State) (t : Time) (b : BusNo),
    let becomes (u : State) (r : Bus) : Prop :=
      u.now = max s.now t ∧ u.busRec b = r ∧ (∀ d, d ≠ b → u.busRec d = s.busRec d)
    let changed (u : State) (x : BusSlot) : Prop := becomes u { s.busRec b with slot := some x }
    let ones (d : Byte) : Nat := ((List.range 8).filter fun k => d.getLsbD k).length
    let bits (d : Byte) : List Bool :=
      [false, d.getLsbD 0, d.getLsbD 1, d.getLsbD 2, d.getLsbD 3, d.getLsbD 4, d.getLsbD 5, d.getLsbD 6, d.getLsbD 7]
        ++ (match (s.busRec b).parity with
          | .none => []
          | .zero => [false]
          | .odd => [ones d % 2 == 0]
          | .even => [ones d % 2 == 1]) ++ [true]
    ((∀ x, (s.busRec b).slot = some x → x.phase ≠ .poll) → s.sentBits b = [])
    ∧ (∀ x, (s.busRec b).slot = some x →
      (x.phase = .poll → s.sentBits b =
        bits (x.poll.get 0) ++ bits (x.poll.get 1) ++ bits (x.poll.get 2) ++ bits (x.poll.get 3) ++ bits (x.poll.get 4))
      ∧ (x.phase = .poll →
        ∃ u, exec (.pollCompletelySent t b) s = .next u
          ∧ becomes u { s.busRec b with
              slot := some { x with phase := .window }, driverEnable := false, finishing := false }
          ∧ (x.flash = false → u.lamps = s.lamps)
          ∧ (x.flash = true → ∀ i, u.lamp i = if i = stationAt b x.address then
              { s.lamp i with queue := (s.lamp i).queue.map fun e =>
                  if e.listed = true ∧ e.status = .pending then { e with shown := true } else e }
              else s.lamp i)
          ∧ onlyChanges [.clock, .busRecords, .lamps] s u)
      ∧ (x.phase = .window → ∃ u, exec (.windowClose t b) s = .next u
          ∧ changed u { x with phase := .guard } ∧ onlyChanges [.clock, .busRecords] s u)
      ∧ (x.phase = .reply → ∃ u, exec (.replyGap t b) s = .next u
          ∧ changed u { x with phase := .guard } ∧ onlyChanges [.clock, .busRecords] s u)
      ∧ ∀ (data : Byte) (parityBit stopBit : Bool),
        let ones := ones data + (if parityBit then 1 else 0)
        let char : ReplyChar :=
          { data := data, framingError := !stopBit
            parityError := match (s.busRec b).parity with
              | .none | .zero => false | .odd => ones % 2 == 0 | .even => ones % 2 == 1 }
        let chars := x.chars ++ [char]
        ∃ u y, exec (.replyCharacter t b data parityBit stopBit) s = .next u
          ∧ changed u y ∧ onlyChanges [.clock, .busRecords] s u
          ∧ (x.phase = .poll → y = x)
          ∧ (x.phase = .window ∨ x.phase = .reply →
              (chars.length < 4 → y = { x with chars := chars, phase := .reply })
              ∧ (4 ≤ chars.length → y = { x with chars := chars, phase := .guard, arrival := max s.now t }))
          ∧ (x.phase = .guard → y = if x.chars = [] then x else { x with extra := true }))
    ∧ ((s.busRec b).finishing = true → ∃ u, exec (.stoppedBusCharacterComplete t b) s = .next u
        ∧ becomes u { s.busRec b with
            finishing := false
            driverEnable := match (s.busRec b).slot with | some x => x.phase == .poll | none => false }
        ∧ onlyChanges [.clock, .busRecords] s u)
    ∧ ((s.busRec b).finishing = false →
        exec (.stoppedBusCharacterComplete t b) s = .next { s with now := max s.now t })

/-- A reply is good exactly when four characters and no fifth arrived, none with a framing or parity error, they sum to 0
mod 256, the first is 40h plus the address and the third is the station's kind code; the second is then the key-down set,
whatever its value. A parity bit is an error in mode ODD or EVEN alone. A slot with a bad reply and one with no reply meet
the same link supervision (R26). -/
def Obligations.GoodRepliesMeetR26 : Prop :=
  (∀ (data : Byte) (bit : Bool), parityFails .none data bit = false ∧ parityFails .zero data bit = false)
  ∧ (∀ (s : State) (b : BusNo) (x : BusSlot), x.discarded = false →
      x.goodKeys (s.station (stationAt b x.address)).kind = none →
      s.superviseSlot b x = s.superviseSlot b { x with chars := [], extra := false })
  ∧ ∀ (x : BusSlot) (k : Kind) (keys : BitVec 8), x.goodKeys k = some keys ↔
    ∃ c1 c2 c3 c4, x.chars = [c1, c2, c3, c4] ∧ x.extra = false
      ∧ (∀ c ∈ x.chars, c.framingError = false ∧ c.parityError = false)
      ∧ c1.data + c2.data + c3.data + c4.data = 0
      ∧ c1.data = 0x40#8 + BitVec.ofNat 8 x.address.val ∧ c3.data = k.code ∧ c2.data = keys

/-- When the guard ends the slot ends and the next begins at the lowest configured address above it, or at the lowest
configured address, and with none configured the bus is idle. A slot whose outcome is discarded does nothing else. A bad or
missed slot leaves a PROBING or DOWN station as it is, adds a miss to an UP one, and at the third takes it DOWN with
LINK_DOWN and the loss effects: its intents, its all-call and its plan are gone, its queue entries LOST, and its call ended
with CALL_ENDED reason LINK_LOST (5). The slot that begins has the poll that the state calls for and exactly the PENDING
entries on its list (R21, R22, R23, R31, R32, R35, R85). -/
def Obligations.MissedSlotsCount : Prop :=
  ∀ (s : State) (t : Time) (b : BusNo) (x : BusSlot), (s.busRec b).slot = some x → x.phase = .guard →
    let i := stationAt b x.address
    let there (c : BusAddress) : Prop := (s.station (stationAt b c)).configured = true
    let follows (u : State) : Prop :=
      u.now = max s.now t ∧ (u.busRec b).running = (s.busRec b).running
      ∧ (∀ c, there c →
          (x.address < c ∧ ∀ d, there d → x.address < d → c ≤ d)
            ∨ ((∀ d, there d → d ≤ x.address) ∧ ∀ d, there d → c ≤ d) →
          slotBegins u b c)
      ∧ ((∀ c, ¬ there c) → u.busRec b = { s.busRec b with slot := none })
      ∧ (∀ d, d ≠ b → u.busRec d = s.busRec d) ∧ (∀ j, j ≠ i → u.link j = s.link j ∧ sameButList s u j)
    ∃ u, exec (.guardEnd t b) s = .next u ∧ follows u
      ∧ (x.discarded = true → u.link i = s.link i ∧ sameButList s u i ∧ onlyChanges [.clock, .busRecords, .lamps] s u)
      ∧ (x.discarded = false → x.goodKeys (s.station i).kind = none →
        ((s.link i).state ≠ .up →
            u.link i = s.link i ∧ sameButList s u i ∧ onlyChanges [.clock, .busRecords, .lamps] s u)
        ∧ ((s.link i).state = .up → (s.link i).misses < 2 →
            u.link i = { s.link i with misses := (s.link i).misses + 1 } ∧ sameButList s u i
            ∧ onlyChanges [.clock, .busRecords, .links, .lamps] s u)
        ∧ ((s.link i).state = .up → (s.link i).misses = 2 →
            u.link i = { s.link i with state := .down, misses := 3 }
            ∧ u.notices.pendingOf .linkDown = (s.raise .linkDown i.val 0).notices.pendingOf .linkDown
            ∧ ((∀ c e, s.call c = some e → e.caller ≠ i ∧ e.callee ≠ i) →
                u.calls = s.calls ∧ u.notices = (s.raise .linkDown i.val 0).notices)
            ∧ (Calls s → ∀ c e, s.call c = some e → e.caller = i ∨ e.callee = i →
                u.call c = none ∧ (∀ d, d ≠ c → u.call d = s.call d)
                ∧ u.notices = ((s.raise .linkDown i.val 0).raise .callEnded c.val 5).notices)
            ∧ (u.lamp i).queue.map QueueEntry.cue = (s.lamp i).queue.map QueueEntry.cue
            ∧ (u.lamp i).goLamp = (s.lamp i).goLamp
            ∧ (∀ n, u.intent i n = none) ∧ u.plan i = State.reset.plan i
            ∧ (∀ w, u.talk.allCall = some w → w.owner ≠ i)
            ∧ (∀ e ∈ (u.lamp i).queue, e.status = .lost ∧ e.shown = false)
            ∧ onlyChanges [.clock, .busRecords, .links, .stations, .intents, .talkerLists, .releaseIgnore, .allCall,
                .calls, .plans, .channels, .cues, .lamps, .pendingNotices] s u))

/-- A good reply. A station in PROBING or DOWN comes UP with the reply as its baseline: no edge is taken, its LOST entries
return PENDING and not shown, the plan of a listener comes into use with the candidates it has, no other plan changes, and
LINK_UP is raised if it came from DOWN. A station already UP has its misses cleared and the key set replaced, and the edges
are dispatched, each whole, in ascending key number. The slot that begins at the next configured address has the poll that
the state calls for (R15, R21, R23, R29, R30, R105, R150). -/
def Obligations.GoodSlotsBringUp : Prop :=
  ∀ (s : State) (t : Time) (b : BusNo) (x : BusSlot) (keys : BitVec 8),
    (s.busRec b).slot = some x → x.phase = .guard → x.discarded = false →
    let i := stationAt b x.address
    let there (c : BusAddress) : Prop := (s.station (stationAt b c)).configured = true
    x.goodKeys (s.station i).kind = some keys →
    ∃ u, exec (.guardEnd t b) s = .next u ∧ u.now = max s.now t
      ∧ (∀ j, j ≠ i → u.link j = s.link j)
      ∧ (∀ c, there c →
          (x.address < c ∧ ∀ d, there d → x.address < d → c ≤ d)
            ∨ ((∀ d, there d → d ≤ x.address) ∧ ∀ d, there d → c ≤ d) →
          slotBegins u b c)
      ∧ ((∀ c, ¬ there c) → u.busRec b = { s.busRec b with slot := none })
      ∧ ((s.link i).state = .probing ∨ (s.link i).state = .down →
        u.link i = { state := .up, misses := 0, keys := keys }
        ∧ ((u.lamp i).queue.map fun e => (e.cue, e.status, e.shown)) = ((s.lamp i).queue.map fun e =>
            if e.status = .lost then (e.cue, EntryStatus.pending, false) else (e.cue, e.status, e.shown))
        ∧ u.notices = (if (s.link i).state = .down then (s.raise .linkUp i.val 0).notices else s.notices)
        ∧ u.plan i = (if (s.station i).configured = true ∧ (s.station i).kind ≠ .cuebox then Plan.opening u i
            else s.plan i)
        ∧ (∀ j, j ≠ i → u.plan j = s.plan j)
        ∧ onlyChanges [.clock, .busRecords, .links, .lamps, .cues, .plans, .pendingNotices] s u)
      ∧ ((s.link i).state = .up →
        u.link i = { state := .up, misses := 0, keys := keys }
        ∧ ∃ v : Fin 9 → State,
          v 0 = (s.clockTo t).modLink i (fun l => { l with misses := 0, keys := keys })
          ∧ (∀ k : KeyNo, v k.succ =
              if (s.link i).keys.getLsbD k.val = false ∧ keys.getLsbD k.val = true then
                (v k.castSucc).dispatchPress i k x.arrival
              else if (s.link i).keys.getLsbD k.val = true ∧ keys.getLsbD k.val = false then
                (v k.castSucc).dispatchRelease i k x.arrival
              else v k.castSucc)
          ∧ onlyChanges [.busRecords, .lamps] (v 8) u)

/-! ## Audio -/

/-- The conversions: a level in -144..+24 gives table[r] div 2^q for d = 24 - L, q = d div 12, r = d mod 12; a level above
+24 is taken as +24 and one below -144 gives 0 (R111); each table entry is 32768 × 2^(-r/12) to the nearest whole number
(R112). A gate threshold L gives (table[r] × 256) div 2^q for d = -L, and a lower threshold a lower magnitude over the
thresholds a gate can hold (R121). A term is floor(x × C / 8192) (R116). -/
def Obligations.GainConversions : Prop :=
  let table : List Nat := [32768, 30929, 29193, 27554, 26008, 24548, 23170, 21870, 20643, 19484, 18390, 17358]
  (∀ r, r < 12 → (2 * table.getD r 0 - 1) ^ 12 * 2 ^ r ≤ 65536 ^ 12 ∧ 65536 ^ 12 ≤ (2 * table.getD r 0 + 1) ^ 12 * 2 ^ r)
  ∧ (∀ d : Nat, d ≤ 168 → coefficientOf (24 - d) = table.getD (d % 12) 0 / 2 ^ (d / 12) ∧ 2 ≤ coefficientOf (24 - d))
  ∧ (∀ l : Int, 24 < l → coefficientOf l = 32768) ∧ (∀ l : Int, l < -144 → coefficientOf l = 0)
  ∧ (∀ l : Int, coefficientOf l ≤ 32768) ∧ coefficientOf 0 = 8192
  ∧ (∀ k l : Int, k ≤ l → coefficientOf k ≤ coefficientOf l)
  ∧ (∀ d : Nat, 6 ≤ d → d ≤ 128 → thresholdOf (-d) = table.getD (d % 12) 0 * 256 / 2 ^ (d / 12))
  ∧ (∀ l m : Int, -128 ≤ l → l < m → m ≤ -6 → thresholdOf l < thresholdOf m)
  ∧ (∀ (x : Int) (c : Nat), 8192 * termOf x c ≤ x * c ∧ x * c < 8192 * (termOf x c + 1))
  ∧ ∀ x : Int, termOf x 8192 = x

/-- A frame in PRESENT: every current coefficient moves by 256 toward its target, or to it if nearer; a DRAINING slot left
at 0 sets its reported mark; each listener in use computes the clamped sum of the terms of its slots that are not FREE, and
every other station 0; the sample computed in the last frame is sent; a clamp sets the overload flag; the peaks grow; the
block counter counts, and the 240th frame ends the block, setting the peaks aside. Station i speaks and hears in slot i mod
24 of port i div 24; the first 24 bits of a slot are the sample, and the last 8 are ignored on input and zero on output (R2,
R109, R110, R113, R114, R116, R117, R119, R120; the peaks set aside are the model's form, log entry 8). -/
def Obligations.AudioFrameMixes : Prop :=
  ∀ (s : State) (t : Time) (ports : AudioPorts), s.phase = .running → s.mix.clockPresent = true →
    let slotOf (x : AudioPorts) (i : StationNo) : AudioWord :=
      (x.get ⟨i.val / 24, by omega⟩).get ⟨i.val % 24, by omega⟩
    let sample (i : StationNo) : Int := ((slotOf ports i).extractLsb' 8 24).toInt
    let step (current target : Nat) : Nat :=
      if current < target then (if target - current ≤ 256 then target else current + 256)
      else (if current - target ≤ 256 then target else current - 256)
    let audio (i : StationNo) : Prop := (s.station i).configured = true ∧ (s.station i).kind ≠ .cuebox
    let input (i : StationNo) : Int := if (s.station i).configured && (s.station i).kind != .cuebox then sample i else 0
    let after (i : StationNo) (k : SlotNo) : Nat :=
      step ((s.plan i).slots.get k).current ((s.plan i).slots.get k).target
    let sum (i : StationNo) : Int := if s.planInUse i then
        ((allOf 8).map fun k => match ((s.plan i).slots.get k).use with
          | .free => 0
          | .active o | .draining o _ => Int.floor (((input o * (after i k : Int) : Int) : ℚ) / 8192)).sum
      else 0
    let peak (i : StationNo) : Nat := max (s.channel i).peak (min (sample i).natAbs 8388607)
    ∃ u, exec (.audioFrame t ports) s = .next u ∧ u.now = max s.now t ∧ u.mix.lastEdge = max s.now t
      ∧ (∀ i, slotOf u.audioOut i = BitVec.ofInt 24 (s.channel i).computed ++ 0#8)
      ∧ (∀ i k, (u.plan i).slots.get k = { (s.plan i).slots.get k with
          current := after i k
          reported := ((s.plan i).slots.get k).reported || (match ((s.plan i).slots.get k).use with
            | .draining _ _ => after i k == 0 | .free | .active _ => false) })
      ∧ (∀ i, (u.plan i).waiting = (s.plan i).waiting ∧ (u.plan i).candidates = (s.plan i).candidates)
      ∧ (∀ i, (u.channel i).sent = (s.channel i).computed
          ∧ (u.channel i).computed = max (-8388608) (min 8388607 (sum i))
          ∧ ((u.channel i).overload = true ↔ (s.channel i).overload = true ∨ 8388607 < sum i ∨ sum i < -8388608))
      ∧ (s.mix.frames < 239 → u.mix.frames = s.mix.frames + 1 ∧ u.mix.blockEnded = s.mix.blockEnded
          ∧ ∀ i, (u.channel i).ended = (s.channel i).ended
            ∧ (audio i → (u.channel i).peak = peak i) ∧ (¬ audio i → (u.channel i).peak = (s.channel i).peak))
      ∧ (s.mix.frames = 239 → u.mix.frames = 0 ∧ u.mix.blockEnded = true
          ∧ ∀ i, (u.channel i).peak = 0
            ∧ (audio i → (u.channel i).ended = some (peak i)) ∧ (¬ audio i → (u.channel i).ended = none))
      ∧ u.mix.clockPresent = true ∧ onlyChanges [.clock, .plans, .channels, .blockCounter, .audioClock] s u

/-- The audio clock is lost 1 ms after its last edge: ABSENT, the block abandoned, every output slot zero, AUDIO_CLOCK LOST.
The first edge in ABSENT raises AUDIO_CLOCK RESTORED and is then an ordinary frame, the first of a new block with every
peak at 0 (R109, R119, R122, R123). The sample held through the loss is the model's choice (log entry 12). In PRESENT there
is nothing to return from (the model's reading, log entry 11). -/
def Obligations.AudioClockLossAndReturn : Prop :=
  ∀ (s : State) (t : Time), s.phase = .running →
    (s.mix.clockPresent = true → s.mix.lastEdge + 12288 ≤ max s.now t →
      ∃ u, exec (.audioClockLost t) s = .next u ∧ u.now = max s.now t
        ∧ u.mix.clockPresent = false ∧ u.mix.lastEdge = s.mix.lastEdge
        ∧ u.mix.frames = 0 ∧ u.mix.blockEnded = s.mix.blockEnded
        ∧ (∀ i, u.channel i = { s.channel i with peak := 0, sent := 0 })
        ∧ (∀ p k, (u.audioOut.get p).get k = 0)
        ∧ u.notices = (s.raise .audioClock 1 0).notices
        ∧ onlyChanges [.clock, .channels, .blockCounter, .audioClock, .pendingNotices] s u)
    ∧ ∀ ports : AudioPorts,
      (s.mix.clockPresent = true → exec (.audioClockReturn t ports) s = .next { s with now := max s.now t })
      ∧ (s.mix.clockPresent = false →
        ∃ u, exec (.audioClockReturn t ports) s = .next u ∧ u.now = max s.now t
          ∧ u.mix.clockPresent = true ∧ u.mix.frames = 1 ∧ u.mix.lastEdge = max s.now t
          ∧ u.notices = (s.raise .audioClock 2 0).notices
          ∧ onlyChanges [.clock, .plans, .channels, .blockCounter, .audioClock, .pendingNotices] s u
          ∧ ∃ v, v.mix.clockPresent = true ∧ v.mix.frames = 0 ∧ v.mix.blockEnded = s.mix.blockEnded
            ∧ v.mix.lastEdge = s.mix.lastEdge
            ∧ (∀ i, v.channel i = { s.channel i with peak := 0 })
            ∧ v.notices = (s.raise .audioClock 2 0).notices
            ∧ onlyChanges [.channels, .blockCounter, .audioClock, .pendingNotices] s v
            ∧ exec (.audioFrame t ports) v = .next u)

/-- At the end of a block every enabled gate is moved by the block peak of its station, and every set overload flag raises
OVERLOAD, in ascending station number, and is cleared (R68, R118, R119). A gate whose hold count the block brings to 0 may
be closed by its own event first (log entry 8). After a closing no intent of the station is a talker; after an opening every
intent of an UP station with TALK right in an OPEN net is one, and one that the gate held back joins the net's talker list
(R55, R69). -/
def Obligations.BlockEndMovesGates : Prop :=
  ∀ (s : State) (t : Time),
    let low (i : StationNo) : Nat := thresholdOf (s.station i).gateClose
    let high (i : StationNo) : Nat := thresholdOf (s.station i).gateOpen
    let moved (i : StationNo) (peak : Nat) : Gate :=
      match (s.gate i).isOpen with
      | false => if high i ≤ peak then { isOpen := true, hold := (s.station i).gateHold } else s.gate i
      | true => if low i ≤ peak then { isOpen := true, hold := (s.station i).gateHold }
          else if (s.gate i).hold ≤ 1 then { isOpen := false, hold := 0 }
          else { isOpen := true, hold := (s.gate i).hold - 1 }
    (s.mix.blockEnded = true →
      ∃ u, exec (.blockEnd t) s = .next u ∧ u.now = max s.now t ∧ u.mix.blockEnded = false
        ∧ u.mix.frames = s.mix.frames
        ∧ (∀ i, u.channel i = { s.channel i with overload := false, ended := none })
        ∧ (∀ i, u.gate i = match (s.channel i).ended with
            | some peak => if (s.station i).gateEnable then moved i peak else s.gate i
            | none => s.gate i)
        ∧ (∀ i n x, (s.gate i).isOpen = true → (u.gate i).isOpen = false → u.intent i n = some x →
            (s.station i).gateEnable = true → x.arrival = none)
        ∧ (∀ i n x, (s.gate i).isOpen = false → (u.gate i).isOpen = true → s.intent i n = some x →
            s.isUp i = true → s.mayTalk i n = true → (s.net n).isOpen = true →
            ∃ y, u.intent i n = some y ∧ y.arrival.isSome = true ∧ y.key = x.key ∧ y.remote = x.remote
              ∧ (x.arrival = none → i ∈ u.talkersOf n))
        ∧ u.notices = (((allOf 96).filter fun i => (s.channel i).overload).foldl
            (fun v i => v.raise .overload i.val 0) s).notices
        ∧ onlyChanges [.clock, .channels, .blockCounter, .gates, .intents, .talkerLists, .arrivalCounter, .plans,
            .pendingNotices] s u)
    ∧ ∀ i peak, (s.channel i).ended = some peak → (s.station i).gateEnable = true → (s.gate i).isOpen = true →
      peak < low i → (s.gate i).hold = 1 →
      ∃ u, exec (.gateHoldExpiry t i) s = .next u ∧ u.now = max s.now t
        ∧ u.gate i = { isOpen := false, hold := 0 } ∧ (∀ j, j ≠ i → u.gate j = s.gate j)
        ∧ (u.channel i).ended = none ∧ (∀ n x, u.intent i n = some x → x.arrival = none)
        ∧ onlyChanges [.clock, .channels, .gates, .intents, .talkerLists, .plans] s u

/-- How a slot is handed on. A drain completion taken for a slot that has reported: a bound next becomes the occupant with
the target of its own level, and without one the slot is FREE; a completion that names a slot not DRAINING, or a plan not in
use, is discarded (R102, R107, R114); that the slot must have reported is the model's reading (log entry 13). A change is
taken by every plan in use. Where one candidate departs, its ACTIVE slot drains and the best waiting candidate is bound; a
bound next is replaced by the best waiting one, which reclaims the slot if it is its occupant; a waiting one leaves the list
(R98, R99, R100). Where one arrives, it takes back the lowest DRAINING slot of its own without a next, or meets the first of
the four cases of R97 (R101). Where the same stations stay candidates and no waiting one gains the all-call flag, no slot
changes hands, every ACTIVE target is that of the present level and the waiting list is in present rank order; a waiting one
that gains the flag is taken as a new candidate (R95, R96, R103). -/
def Obligations.DrainCompletionHandsOn : Prop :=
  (∀ (s : State) (t : Time) (i : StationNo) (k : SlotNo),
    let x := (s.plan i).slots.get k
    let early : State := { s with now := max s.now t }
    (∀ o next, s.planInUse i = true → x.reported = true → x.use = .draining o next →
      ∃ u, exec (.drainCompletion t i k) s = .next u
        ∧ (u.plan i).slots.get k = (match next with
          | some y => { x with use := .active y, target := coefficientOf ((s.plan i).levelOf y), reported := false }
          | none => { x with use := .free, target := 0, reported := false })
        ∧ (∀ j, j ≠ k → (u.plan i).slots.get j = (s.plan i).slots.get j)
        ∧ (u.plan i).waiting = (s.plan i).waiting ∧ (u.plan i).candidates = (s.plan i).candidates
        ∧ (∀ j, j ≠ i → u.plan j = s.plan j) ∧ u.now = max s.now t ∧ onlyChanges [.clock, .plans] s u)
    ∧ ((s.planInUse i = false ∨ x.use = .free ∨ ∃ o, x.use = .active o) →
      exec (.drainCompletion t i k) s = .next early))
  ∧ (∀ (s : State) (i : StationNo),
    s.replan.plan i = if s.planInUse i then Plan.revise s i (s.plan i) else s.plan i)
  ∧ ∀ (s : State) (i : StationNo) (p : Plan), PlanShape i p →
    p.waiting.Pairwise (fun a b => p.ranksBefore s a b = true) → (∀ c ∈ p.candidates, c.paths ≠ []) →
    (∀ k t, (p.slots.get k).use = .active t → (p.slots.get k).target = coefficientOf (p.levelOf t)) →
    let q := Plan.revise s i p
    let present := s.candidatesOf i
    let use (k : SlotNo) : SlotUse := (p.slots.get k).use
    let becomes (k : SlotNo) (y : Slot) : Prop := q.slots.get k = y ∧ ∀ j, j ≠ k → q.slots.get j = p.slots.get j
    let holds (k : SlotNo) (t : StationNo) : Prop :=
      becomes k { p.slots.get k with use := .active t, target := coefficientOf (q.levelOf t), reported := false }
    let inRank : Prop := q.waiting.Pairwise fun a b => q.ranksBefore s a b = true
    let contends (c : Candidate) (others : List StationNo) : Prop :=
      inRank ∧ ∀ k h d, (use k).holder = some h → p.candidate h = some d →
        (∀ g ∈ p.holders, g ≠ h → p.ranksBefore s g h = true) →
        (s.outranks c d = true → q.waiting.Perm (h :: others)
          ∧ (use k = .active h →
              becomes k { p.slots.get k with use := .draining h (some c.station), target := 0 })
          ∧ ∀ o, use k = .draining o (some h) → becomes k { p.slots.get k with use := .draining o (some c.station) })
        ∧ (s.outranks c d = false → q.waiting.Perm (c.station :: others) ∧ q.slots = p.slots)
    (∀ t, t ∈ p.holders ++ p.waiting → present = p.candidates.filter (fun d => d.station ≠ t) →
      (t ∈ p.waiting → q.waiting = p.waiting.filter (· ≠ t) ∧ q.slots = p.slots)
      ∧ (∀ k, use k = .active t → q.waiting = p.waiting.tail
          ∧ becomes k { p.slots.get k with use := .draining t p.waiting.head?, target := 0 })
      ∧ ∀ k o, use k = .draining o (some t) → q.waiting = p.waiting.tail
          ∧ (p.waiting.head? = some o → holds k o)
          ∧ (p.waiting.head? ≠ some o → becomes k { p.slots.get k with use := .draining o p.waiting.head? }))
    ∧ (∀ c, c.station ∉ p.candidates.map Candidate.station → present.Perm (c :: p.candidates) → c.station ≠ i →
      (∀ k, use k = .draining c.station none → (∀ j, j < k → use j ≠ .draining c.station none) →
        holds k c.station ∧ q.waiting = p.waiting)
      ∧ ((∀ k, use k ≠ .draining c.station none) →
        (∀ k, use k = .free → (∀ j, j < k → use j ≠ .free) → holds k c.station ∧ q.waiting = p.waiting)
        ∧ ((∀ k, use k ≠ .free) →
          (∀ k o, use k = .draining o none → (∀ j, j < k → ∀ x, use j ≠ .draining x none) →
            becomes k { p.slots.get k with use := .draining o (some c.station) } ∧ q.waiting = p.waiting)
          ∧ ((∀ k o, use k ≠ .draining o none) → contends c p.waiting))))
    ∧ ((present.map Candidate.station).Perm (p.candidates.map Candidate.station) →
      (∀ c ∈ present, ∀ d, p.candidate c.station = some d → ∃ x ∈ d.paths, c.hasPath x.kind = true) →
      ((∀ c ∈ present, ∀ d, c.station ∈ p.waiting → p.candidate c.station = some d →
          c.allCall = true → d.allCall = true) →
        q.waiting.Perm p.waiting ∧ inRank
        ∧ ∀ k, q.slots.get k = (match use k with
            | .active t => { p.slots.get k with target := coefficientOf (q.levelOf t) }
            | .free | .draining _ _ => p.slots.get k)
          ∧ ∀ c ∈ present, q.levelOf c.station = c.level)
      ∧ ∀ c ∈ present, ∀ d, c.station ∈ p.waiting → p.candidate c.station = some d → c.allCall = true → d.allCall = false →
        (∀ x ∈ d.paths, c.hasPath x.kind = true) → (∀ e ∈ present, e.station ≠ c.station → e ∈ p.candidates) →
        contends c (p.waiting.filter (· ≠ c.station)))

/-- Which candidates a plan has, how they rank, and how a plan begins. The candidates of a listener in use are the other
stations from which a path comes: a net path through each OPEN net in which the listener has LISTEN right at a level other
than OFF and the station talks, a call path from the other party of a CONNECTED call, and an all-call path from the owner of
an active all-call, each with its level and arrival number (R90, R91). A candidate's level is the greatest of its paths',
its arrival the smallest, its flag that of the all-call path (R92). The rank goes by flag, class, arrival and station, and a
candidate strictly outranks by flag or class alone (R94). A plan that comes into use has the candidates taken in rank order:
one in each slot from slot 0, ACTIVE with the target of its level, and those past the eighth waiting in rank order (R97,
R105, R107). -/
def Obligations.NewPlanRanksCandidates : Prop :=
  (∀ (s : State) (i : StationNo), NetTables s → Talkers s → Calls s → s.planInUse i = true →
    let dim (n : NetNo) : Int := if i ∈ s.talkersOf n then (s.station i).dim else 0
    let duck : Int := match s.talk.allCall with | some x => if x.owner = i then 0 else (s.station i).duck | none => 0
    let path (t : StationNo) (x : Path) : Prop :=
      (∃ n e m l, x.kind = .net n ∧ (s.net n).isOpen = true ∧ s.member e = some m ∧ m.net = n ∧ m.station = i
        ∧ m.rights ≠ .talk ∧ m.level = some l ∧ t ∈ s.talkersOf n
        ∧ x.level = (s.station t).trim + l + (s.station i).master - dim n - duck
        ∧ ∃ y, s.intent t n = some y ∧ y.arrival = some x.arrival)
      ∨ (x.kind = .call ∧ x.level = (s.station t).trim + (s.station i).master - duck
        ∧ ∃ c e, s.call c = some e ∧ e.state = .connected x.arrival
          ∧ ((e.caller = i ∧ e.callee = t) ∨ (e.callee = i ∧ e.caller = t)))
      ∨ (x.kind = .allCall ∧ x.level = (s.station t).trim + (s.station i).master
        ∧ ∃ w, s.talk.allCall = some w ∧ w.owner = t ∧ w.arrival = x.arrival)
    (s.candidatesOf i).Pairwise (fun c d => c.station < d.station)
    ∧ (∀ t, (∃ c ∈ s.candidatesOf i, c.station = t) ↔ t ≠ i ∧ ∃ x, path t x)
    ∧ ∀ c ∈ s.candidatesOf i, (c.paths.map Path.kind).Nodup ∧ c.paths ≠ [] ∧ ∀ x, x ∈ c.paths ↔ path c.station x)
  ∧ (∀ c : Candidate, c.paths ≠ [] →
    (∃ x ∈ c.paths, x.level = c.level) ∧ (∀ x ∈ c.paths, x.level ≤ c.level)
    ∧ (∃ x ∈ c.paths, x.arrival = c.arrival) ∧ (∀ x ∈ c.paths, c.arrival ≤ x.arrival)
    ∧ (c.allCall = true ↔ ∃ x ∈ c.paths, x.kind = .allCall))
  ∧ (∀ (s : State) (c d : Candidate),
    let cls (x : Candidate) : Nat := match (s.station x.station).cls with
      | .crew => 0 | .operator => 1 | .booth => 2 | .stageManager => 3
    let flag : Prop := c.allCall = true ∧ d.allCall = false
    let higher : Prop := c.allCall = d.allCall ∧ cls d < cls c
    (s.outranks c d = true ↔ flag ∨ higher)
    ∧ (s.ranksBefore c d = true ↔ flag ∨ higher ∨ (c.allCall = d.allCall ∧ cls c = cls d
        ∧ (c.arrival < d.arrival ∨ (c.arrival = d.arrival ∧ c.station < d.station)))))
  ∧ ∀ (s : State) (i : StationNo) (ranked : List Candidate),
    ranked.Perm (s.candidatesOf i) → ranked.Pairwise (fun c d => s.ranksBefore c d = true) →
    let p := Plan.opening s i
    (∀ k : SlotNo, p.slots.get k = match ranked[k.val]? with
      | some c => { use := .active c.station, target := coefficientOf c.level, current := 0, reported := false }
      | none => { use := .free, target := 0, current := 0, reported := false })
    ∧ p.waiting = (ranked.drop 8).map Candidate.station ∧ p.candidates = s.candidatesOf i

/-! ## What every step keeps -/

/-- Every step keeps every counter, level and coefficient in its range (R1, R9, R18, R39, R41, R56, R107, R111, R113, R114,
R117, R119, R120, R126, R127, R162, R164, R172), and every write in the level staging buffer addresses an existing record
(R165). -/
def Obligations.StepsKeepRanges : Prop :=
  (∀ s u : State, Ranges s → step s = .next u → Ranges u)
  ∧ ∀ s u : State, StagedPresent s → step s = .next u → StagedPresent u

/-- Every step keeps the links, the slots, the drivers and the plans with their buses (R20, R21, R27, R28, R33, R89,
R106). -/
def Obligations.StepsKeepLinks : Prop :=
  ∀ s u : State, Links s → step s = .next u → Links u

/-- Every step keeps the net tables in agreement (R38 to R41, R46, R47). -/
def Obligations.StepsKeepNetTables : Prop :=
  ∀ s u : State, NetTables s → step s = .next u → NetTables u

/-- Every step keeps the talker rule, the talker lists and the all-call's owner, in a state whose links and net tables are
in order (R54, R55, R57, R70, R71, R74, R75). -/
def Obligations.StepsKeepTalkers : Prop :=
  ∀ s u : State, Links s → NetTables s → Talkers s → step s = .next u → Talkers u

/-- Every step keeps the key maps as R12 allows them, and the calls exclusive, in a state whose key maps and links are in
order (R12, R13, R76, R77, R85). -/
def Obligations.StepsKeepKeyMapsAndCalls : Prop :=
  (∀ s u : State, KeyMaps s → step s = .next u → KeyMaps u)
  ∧ ∀ s u : State, KeyMaps s → Links s → Calls s → step s = .next u → Calls u

/-- Every step keeps the shape of every plan (R89, R92, R97 to R102). In a state whose tables are in order, every step keeps
the plans in use current: their candidates are those whose paths exist, every ACTIVE target is the coefficient of its
occupant's level, and the waiting candidates stand in rank order (R90 to R96, R103, R107). -/
def Obligations.StepsKeepPlanShapes : Prop :=
  (∀ s u : State, (∀ i, PlanShape i (s.plan i)) → step s = .next u → ∀ i, PlanShape i (u.plan i))
  ∧ ∀ s u : State, PlansCurrent s → step s = .next u → ∀ i, PlanCurrent u i (u.plan i)

/-- Every step keeps the cues and the standby queues in agreement, in a state whose links are in order (R130, R144 to R150). -/
def Obligations.StepsKeepCues : Prop :=
  ∀ s u : State, Links s → Cues s → step s = .next u → Cues u

/-- The state after reset has all of these. -/
def Obligations.ResetHasInvariants : Prop :=
  Ranges State.reset ∧ KeyMaps State.reset ∧ Links State.reset ∧ NetTables State.reset ∧ Talkers State.reset
    ∧ Calls State.reset ∧ (∀ i, PlanShape i (State.reset.plan i)) ∧ Cues State.reset ∧ PlansCurrent State.reset
    ∧ StagedPresent State.reset
end

