-- ==== Sys2Proof/Laws/State.lean ====
section
/-! SUPPORT. One lemma for each field after each update of the state: the updates are never unfolded again. -/

namespace Sys2Proof.Machine

/-! `State.clockTo` -/

@[simp] theorem State.clockTo_phase (s : State) (t : Time) : (s.clockTo t).phase = s.phase := rfl
@[simp] theorem State.clockTo_now (s : State) (t : Time) : (s.clockTo t).now = max s.now t := rfl
@[simp] theorem State.clockTo_stations (s : State) (t : Time) : (s.clockTo t).stations = s.stations := rfl
@[simp] theorem State.clockTo_bus (s : State) (t : Time) : (s.clockTo t).bus = s.bus := rfl
@[simp] theorem State.clockTo_nets (s : State) (t : Time) : (s.clockTo t).nets = s.nets := rfl
@[simp] theorem State.clockTo_talk (s : State) (t : Time) : (s.clockTo t).talk = s.talk := rfl
@[simp] theorem State.clockTo_calls (s : State) (t : Time) : (s.clockTo t).calls = s.calls := rfl
@[simp] theorem State.clockTo_plans (s : State) (t : Time) : (s.clockTo t).plans = s.plans := rfl
@[simp] theorem State.clockTo_mix (s : State) (t : Time) : (s.clockTo t).mix = s.mix := rfl
@[simp] theorem State.clockTo_cues (s : State) (t : Time) : (s.clockTo t).cues = s.cues := rfl
@[simp] theorem State.clockTo_lamps (s : State) (t : Time) : (s.clockTo t).lamps = s.lamps := rfl
@[simp] theorem State.clockTo_port (s : State) (t : Time) : (s.clockTo t).port = s.port := rfl
@[simp] theorem State.clockTo_notices (s : State) (t : Time) : (s.clockTo t).notices = s.notices := rfl
@[simp] theorem State.clockTo_pending (s : State) (t : Time) : (s.clockTo t).pending = s.pending := rfl

/-! `State.modStation` -/

@[simp] theorem State.modStation_phase (s : State) (i : StationNo) (f : Station → Station) : (s.modStation i f).phase = s.phase := rfl
@[simp] theorem State.modStation_now (s : State) (i : StationNo) (f : Station → Station) : (s.modStation i f).now = s.now := rfl
@[simp] theorem State.modStation_stations (s : State) (i : StationNo) (f : Station → Station) : (s.modStation i f).stations = modifyAt s.stations i f := rfl
@[simp] theorem State.modStation_bus (s : State) (i : StationNo) (f : Station → Station) : (s.modStation i f).bus = s.bus := rfl
@[simp] theorem State.modStation_nets (s : State) (i : StationNo) (f : Station → Station) : (s.modStation i f).nets = s.nets := rfl
@[simp] theorem State.modStation_talk (s : State) (i : StationNo) (f : Station → Station) : (s.modStation i f).talk = s.talk := rfl
@[simp] theorem State.modStation_calls (s : State) (i : StationNo) (f : Station → Station) : (s.modStation i f).calls = s.calls := rfl
@[simp] theorem State.modStation_plans (s : State) (i : StationNo) (f : Station → Station) : (s.modStation i f).plans = s.plans := rfl
@[simp] theorem State.modStation_mix (s : State) (i : StationNo) (f : Station → Station) : (s.modStation i f).mix = s.mix := rfl
@[simp] theorem State.modStation_cues (s : State) (i : StationNo) (f : Station → Station) : (s.modStation i f).cues = s.cues := rfl
@[simp] theorem State.modStation_lamps (s : State) (i : StationNo) (f : Station → Station) : (s.modStation i f).lamps = s.lamps := rfl
@[simp] theorem State.modStation_port (s : State) (i : StationNo) (f : Station → Station) : (s.modStation i f).port = s.port := rfl
@[simp] theorem State.modStation_notices (s : State) (i : StationNo) (f : Station → Station) : (s.modStation i f).notices = s.notices := rfl
@[simp] theorem State.modStation_pending (s : State) (i : StationNo) (f : Station → Station) : (s.modStation i f).pending = s.pending := rfl

/-! `State.modKey` -/

@[simp] theorem State.modKey_phase (s : State) (i : StationNo) (k : KeyNo) (f : Key → Key) : (s.modKey i k f).phase = s.phase := rfl
@[simp] theorem State.modKey_now (s : State) (i : StationNo) (k : KeyNo) (f : Key → Key) : (s.modKey i k f).now = s.now := rfl
@[simp] theorem State.modKey_stations (s : State) (i : StationNo) (k : KeyNo) (f : Key → Key) : (s.modKey i k f).stations = modifyAt s.stations i fun r => { r with keys := modifyAt r.keys k f } := rfl
@[simp] theorem State.modKey_bus (s : State) (i : StationNo) (k : KeyNo) (f : Key → Key) : (s.modKey i k f).bus = s.bus := rfl
@[simp] theorem State.modKey_nets (s : State) (i : StationNo) (k : KeyNo) (f : Key → Key) : (s.modKey i k f).nets = s.nets := rfl
@[simp] theorem State.modKey_talk (s : State) (i : StationNo) (k : KeyNo) (f : Key → Key) : (s.modKey i k f).talk = s.talk := rfl
@[simp] theorem State.modKey_calls (s : State) (i : StationNo) (k : KeyNo) (f : Key → Key) : (s.modKey i k f).calls = s.calls := rfl
@[simp] theorem State.modKey_plans (s : State) (i : StationNo) (k : KeyNo) (f : Key → Key) : (s.modKey i k f).plans = s.plans := rfl
@[simp] theorem State.modKey_mix (s : State) (i : StationNo) (k : KeyNo) (f : Key → Key) : (s.modKey i k f).mix = s.mix := rfl
@[simp] theorem State.modKey_cues (s : State) (i : StationNo) (k : KeyNo) (f : Key → Key) : (s.modKey i k f).cues = s.cues := rfl
@[simp] theorem State.modKey_lamps (s : State) (i : StationNo) (k : KeyNo) (f : Key → Key) : (s.modKey i k f).lamps = s.lamps := rfl
@[simp] theorem State.modKey_port (s : State) (i : StationNo) (k : KeyNo) (f : Key → Key) : (s.modKey i k f).port = s.port := rfl
@[simp] theorem State.modKey_notices (s : State) (i : StationNo) (k : KeyNo) (f : Key → Key) : (s.modKey i k f).notices = s.notices := rfl
@[simp] theorem State.modKey_pending (s : State) (i : StationNo) (k : KeyNo) (f : Key → Key) : (s.modKey i k f).pending = s.pending := rfl

/-! `State.modBus` -/

@[simp] theorem State.modBus_phase (s : State) (b : BusNo) (f : Bus → Bus) : (s.modBus b f).phase = s.phase := rfl
@[simp] theorem State.modBus_now (s : State) (b : BusNo) (f : Bus → Bus) : (s.modBus b f).now = s.now := rfl
@[simp] theorem State.modBus_stations (s : State) (b : BusNo) (f : Bus → Bus) : (s.modBus b f).stations = s.stations := rfl
@[simp] theorem State.modBus_bus_buses (s : State) (b : BusNo) (f : Bus → Bus) : (s.modBus b f).bus.buses = modifyAt s.bus.buses b f := rfl
@[simp] theorem State.modBus_bus_links (s : State) (b : BusNo) (f : Bus → Bus) : (s.modBus b f).bus.links = s.bus.links := rfl
@[simp] theorem State.modBus_nets (s : State) (b : BusNo) (f : Bus → Bus) : (s.modBus b f).nets = s.nets := rfl
@[simp] theorem State.modBus_talk (s : State) (b : BusNo) (f : Bus → Bus) : (s.modBus b f).talk = s.talk := rfl
@[simp] theorem State.modBus_calls (s : State) (b : BusNo) (f : Bus → Bus) : (s.modBus b f).calls = s.calls := rfl
@[simp] theorem State.modBus_plans (s : State) (b : BusNo) (f : Bus → Bus) : (s.modBus b f).plans = s.plans := rfl
@[simp] theorem State.modBus_mix (s : State) (b : BusNo) (f : Bus → Bus) : (s.modBus b f).mix = s.mix := rfl
@[simp] theorem State.modBus_cues (s : State) (b : BusNo) (f : Bus → Bus) : (s.modBus b f).cues = s.cues := rfl
@[simp] theorem State.modBus_lamps (s : State) (b : BusNo) (f : Bus → Bus) : (s.modBus b f).lamps = s.lamps := rfl
@[simp] theorem State.modBus_port (s : State) (b : BusNo) (f : Bus → Bus) : (s.modBus b f).port = s.port := rfl
@[simp] theorem State.modBus_notices (s : State) (b : BusNo) (f : Bus → Bus) : (s.modBus b f).notices = s.notices := rfl
@[simp] theorem State.modBus_pending (s : State) (b : BusNo) (f : Bus → Bus) : (s.modBus b f).pending = s.pending := rfl

/-! `State.modLink` -/

@[simp] theorem State.modLink_phase (s : State) (i : StationNo) (f : Link → Link) : (s.modLink i f).phase = s.phase := rfl
@[simp] theorem State.modLink_now (s : State) (i : StationNo) (f : Link → Link) : (s.modLink i f).now = s.now := rfl
@[simp] theorem State.modLink_stations (s : State) (i : StationNo) (f : Link → Link) : (s.modLink i f).stations = s.stations := rfl
@[simp] theorem State.modLink_bus_buses (s : State) (i : StationNo) (f : Link → Link) : (s.modLink i f).bus.buses = s.bus.buses := rfl
@[simp] theorem State.modLink_bus_links (s : State) (i : StationNo) (f : Link → Link) : (s.modLink i f).bus.links = modifyAt s.bus.links i f := rfl
@[simp] theorem State.modLink_nets (s : State) (i : StationNo) (f : Link → Link) : (s.modLink i f).nets = s.nets := rfl
@[simp] theorem State.modLink_talk (s : State) (i : StationNo) (f : Link → Link) : (s.modLink i f).talk = s.talk := rfl
@[simp] theorem State.modLink_calls (s : State) (i : StationNo) (f : Link → Link) : (s.modLink i f).calls = s.calls := rfl
@[simp] theorem State.modLink_plans (s : State) (i : StationNo) (f : Link → Link) : (s.modLink i f).plans = s.plans := rfl
@[simp] theorem State.modLink_mix (s : State) (i : StationNo) (f : Link → Link) : (s.modLink i f).mix = s.mix := rfl
@[simp] theorem State.modLink_cues (s : State) (i : StationNo) (f : Link → Link) : (s.modLink i f).cues = s.cues := rfl
@[simp] theorem State.modLink_lamps (s : State) (i : StationNo) (f : Link → Link) : (s.modLink i f).lamps = s.lamps := rfl
@[simp] theorem State.modLink_port (s : State) (i : StationNo) (f : Link → Link) : (s.modLink i f).port = s.port := rfl
@[simp] theorem State.modLink_notices (s : State) (i : StationNo) (f : Link → Link) : (s.modLink i f).notices = s.notices := rfl
@[simp] theorem State.modLink_pending (s : State) (i : StationNo) (f : Link → Link) : (s.modLink i f).pending = s.pending := rfl

/-! `State.modNet` -/

@[simp] theorem State.modNet_phase (s : State) (n : NetNo) (f : Net → Net) : (s.modNet n f).phase = s.phase := rfl
@[simp] theorem State.modNet_now (s : State) (n : NetNo) (f : Net → Net) : (s.modNet n f).now = s.now := rfl
@[simp] theorem State.modNet_stations (s : State) (n : NetNo) (f : Net → Net) : (s.modNet n f).stations = s.stations := rfl
@[simp] theorem State.modNet_bus (s : State) (n : NetNo) (f : Net → Net) : (s.modNet n f).bus = s.bus := rfl
@[simp] theorem State.modNet_nets_nets (s : State) (n : NetNo) (f : Net → Net) : (s.modNet n f).nets.nets = modifyAt s.nets.nets n f := rfl
@[simp] theorem State.modNet_nets_pool (s : State) (n : NetNo) (f : Net → Net) : (s.modNet n f).nets.pool = s.nets.pool := rfl
@[simp] theorem State.modNet_talk (s : State) (n : NetNo) (f : Net → Net) : (s.modNet n f).talk = s.talk := rfl
@[simp] theorem State.modNet_calls (s : State) (n : NetNo) (f : Net → Net) : (s.modNet n f).calls = s.calls := rfl
@[simp] theorem State.modNet_plans (s : State) (n : NetNo) (f : Net → Net) : (s.modNet n f).plans = s.plans := rfl
@[simp] theorem State.modNet_mix (s : State) (n : NetNo) (f : Net → Net) : (s.modNet n f).mix = s.mix := rfl
@[simp] theorem State.modNet_cues (s : State) (n : NetNo) (f : Net → Net) : (s.modNet n f).cues = s.cues := rfl
@[simp] theorem State.modNet_lamps (s : State) (n : NetNo) (f : Net → Net) : (s.modNet n f).lamps = s.lamps := rfl
@[simp] theorem State.modNet_port (s : State) (n : NetNo) (f : Net → Net) : (s.modNet n f).port = s.port := rfl
@[simp] theorem State.modNet_notices (s : State) (n : NetNo) (f : Net → Net) : (s.modNet n f).notices = s.notices := rfl
@[simp] theorem State.modNet_pending (s : State) (n : NetNo) (f : Net → Net) : (s.modNet n f).pending = s.pending := rfl

/-! `State.modMember` -/

@[simp] theorem State.modMember_phase (s : State) (e : EntryNo) (f : Option Member → Option Member) : (s.modMember e f).phase = s.phase := rfl
@[simp] theorem State.modMember_now (s : State) (e : EntryNo) (f : Option Member → Option Member) : (s.modMember e f).now = s.now := rfl
@[simp] theorem State.modMember_stations (s : State) (e : EntryNo) (f : Option Member → Option Member) : (s.modMember e f).stations = s.stations := rfl
@[simp] theorem State.modMember_bus (s : State) (e : EntryNo) (f : Option Member → Option Member) : (s.modMember e f).bus = s.bus := rfl
@[simp] theorem State.modMember_nets_nets (s : State) (e : EntryNo) (f : Option Member → Option Member) : (s.modMember e f).nets.nets = s.nets.nets := rfl
@[simp] theorem State.modMember_nets_pool (s : State) (e : EntryNo) (f : Option Member → Option Member) : (s.modMember e f).nets.pool = modifyAt s.nets.pool e f := rfl
@[simp] theorem State.modMember_talk (s : State) (e : EntryNo) (f : Option Member → Option Member) : (s.modMember e f).talk = s.talk := rfl
@[simp] theorem State.modMember_calls (s : State) (e : EntryNo) (f : Option Member → Option Member) : (s.modMember e f).calls = s.calls := rfl
@[simp] theorem State.modMember_plans (s : State) (e : EntryNo) (f : Option Member → Option Member) : (s.modMember e f).plans = s.plans := rfl
@[simp] theorem State.modMember_mix (s : State) (e : EntryNo) (f : Option Member → Option Member) : (s.modMember e f).mix = s.mix := rfl
@[simp] theorem State.modMember_cues (s : State) (e : EntryNo) (f : Option Member → Option Member) : (s.modMember e f).cues = s.cues := rfl
@[simp] theorem State.modMember_lamps (s : State) (e : EntryNo) (f : Option Member → Option Member) : (s.modMember e f).lamps = s.lamps := rfl
@[simp] theorem State.modMember_port (s : State) (e : EntryNo) (f : Option Member → Option Member) : (s.modMember e f).port = s.port := rfl
@[simp] theorem State.modMember_notices (s : State) (e : EntryNo) (f : Option Member → Option Member) : (s.modMember e f).notices = s.notices := rfl
@[simp] theorem State.modMember_pending (s : State) (e : EntryNo) (f : Option Member → Option Member) : (s.modMember e f).pending = s.pending := rfl

/-! `State.modTalkers` -/

@[simp] theorem State.modTalkers_phase (s : State) (n : NetNo) (f : List StationNo → List StationNo) : (s.modTalkers n f).phase = s.phase := rfl
@[simp] theorem State.modTalkers_now (s : State) (n : NetNo) (f : List StationNo → List StationNo) : (s.modTalkers n f).now = s.now := rfl
@[simp] theorem State.modTalkers_stations (s : State) (n : NetNo) (f : List StationNo → List StationNo) : (s.modTalkers n f).stations = s.stations := rfl
@[simp] theorem State.modTalkers_bus (s : State) (n : NetNo) (f : List StationNo → List StationNo) : (s.modTalkers n f).bus = s.bus := rfl
@[simp] theorem State.modTalkers_nets (s : State) (n : NetNo) (f : List StationNo → List StationNo) : (s.modTalkers n f).nets = s.nets := rfl
@[simp] theorem State.modTalkers_talk_intents (s : State) (n : NetNo) (f : List StationNo → List StationNo) : (s.modTalkers n f).talk.intents = s.talk.intents := rfl
@[simp] theorem State.modTalkers_talk_talkers (s : State) (n : NetNo) (f : List StationNo → List StationNo) : (s.modTalkers n f).talk.talkers = modifyAt s.talk.talkers n f := rfl
@[simp] theorem State.modTalkers_talk_arrivals (s : State) (n : NetNo) (f : List StationNo → List StationNo) : (s.modTalkers n f).talk.arrivals = s.talk.arrivals := rfl
@[simp] theorem State.modTalkers_talk_allCall (s : State) (n : NetNo) (f : List StationNo → List StationNo) : (s.modTalkers n f).talk.allCall = s.talk.allCall := rfl
@[simp] theorem State.modTalkers_talk_gates (s : State) (n : NetNo) (f : List StationNo → List StationNo) : (s.modTalkers n f).talk.gates = s.talk.gates := rfl
@[simp] theorem State.modTalkers_talk_releaseIgnore (s : State) (n : NetNo) (f : List StationNo → List StationNo) : (s.modTalkers n f).talk.releaseIgnore = s.talk.releaseIgnore := rfl
@[simp] theorem State.modTalkers_calls (s : State) (n : NetNo) (f : List StationNo → List StationNo) : (s.modTalkers n f).calls = s.calls := rfl
@[simp] theorem State.modTalkers_plans (s : State) (n : NetNo) (f : List StationNo → List StationNo) : (s.modTalkers n f).plans = s.plans := rfl
@[simp] theorem State.modTalkers_mix (s : State) (n : NetNo) (f : List StationNo → List StationNo) : (s.modTalkers n f).mix = s.mix := rfl
@[simp] theorem State.modTalkers_cues (s : State) (n : NetNo) (f : List StationNo → List StationNo) : (s.modTalkers n f).cues = s.cues := rfl
@[simp] theorem State.modTalkers_lamps (s : State) (n : NetNo) (f : List StationNo → List StationNo) : (s.modTalkers n f).lamps = s.lamps := rfl
@[simp] theorem State.modTalkers_port (s : State) (n : NetNo) (f : List StationNo → List StationNo) : (s.modTalkers n f).port = s.port := rfl
@[simp] theorem State.modTalkers_notices (s : State) (n : NetNo) (f : List StationNo → List StationNo) : (s.modTalkers n f).notices = s.notices := rfl
@[simp] theorem State.modTalkers_pending (s : State) (n : NetNo) (f : List StationNo → List StationNo) : (s.modTalkers n f).pending = s.pending := rfl

/-! `State.modGate` -/

@[simp] theorem State.modGate_phase (s : State) (i : StationNo) (f : Gate → Gate) : (s.modGate i f).phase = s.phase := rfl
@[simp] theorem State.modGate_now (s : State) (i : StationNo) (f : Gate → Gate) : (s.modGate i f).now = s.now := rfl
@[simp] theorem State.modGate_stations (s : State) (i : StationNo) (f : Gate → Gate) : (s.modGate i f).stations = s.stations := rfl
@[simp] theorem State.modGate_bus (s : State) (i : StationNo) (f : Gate → Gate) : (s.modGate i f).bus = s.bus := rfl
@[simp] theorem State.modGate_nets (s : State) (i : StationNo) (f : Gate → Gate) : (s.modGate i f).nets = s.nets := rfl
@[simp] theorem State.modGate_talk_intents (s : State) (i : StationNo) (f : Gate → Gate) : (s.modGate i f).talk.intents = s.talk.intents := rfl
@[simp] theorem State.modGate_talk_talkers (s : State) (i : StationNo) (f : Gate → Gate) : (s.modGate i f).talk.talkers = s.talk.talkers := rfl
@[simp] theorem State.modGate_talk_arrivals (s : State) (i : StationNo) (f : Gate → Gate) : (s.modGate i f).talk.arrivals = s.talk.arrivals := rfl
@[simp] theorem State.modGate_talk_allCall (s : State) (i : StationNo) (f : Gate → Gate) : (s.modGate i f).talk.allCall = s.talk.allCall := rfl
@[simp] theorem State.modGate_talk_gates (s : State) (i : StationNo) (f : Gate → Gate) : (s.modGate i f).talk.gates = modifyAt s.talk.gates i f := rfl
@[simp] theorem State.modGate_talk_releaseIgnore (s : State) (i : StationNo) (f : Gate → Gate) : (s.modGate i f).talk.releaseIgnore = s.talk.releaseIgnore := rfl
@[simp] theorem State.modGate_calls (s : State) (i : StationNo) (f : Gate → Gate) : (s.modGate i f).calls = s.calls := rfl
@[simp] theorem State.modGate_plans (s : State) (i : StationNo) (f : Gate → Gate) : (s.modGate i f).plans = s.plans := rfl
@[simp] theorem State.modGate_mix (s : State) (i : StationNo) (f : Gate → Gate) : (s.modGate i f).mix = s.mix := rfl
@[simp] theorem State.modGate_cues (s : State) (i : StationNo) (f : Gate → Gate) : (s.modGate i f).cues = s.cues := rfl
@[simp] theorem State.modGate_lamps (s : State) (i : StationNo) (f : Gate → Gate) : (s.modGate i f).lamps = s.lamps := rfl
@[simp] theorem State.modGate_port (s : State) (i : StationNo) (f : Gate → Gate) : (s.modGate i f).port = s.port := rfl
@[simp] theorem State.modGate_notices (s : State) (i : StationNo) (f : Gate → Gate) : (s.modGate i f).notices = s.notices := rfl
@[simp] theorem State.modGate_pending (s : State) (i : StationNo) (f : Gate → Gate) : (s.modGate i f).pending = s.pending := rfl

/-! `State.setIgnoreRelease` -/

@[simp] theorem State.setIgnoreRelease_phase (s : State) (i : StationNo) (k : KeyNo) (b : Bool) : (s.setIgnoreRelease i k b).phase = s.phase := rfl
@[simp] theorem State.setIgnoreRelease_now (s : State) (i : StationNo) (k : KeyNo) (b : Bool) : (s.setIgnoreRelease i k b).now = s.now := rfl
@[simp] theorem State.setIgnoreRelease_stations (s : State) (i : StationNo) (k : KeyNo) (b : Bool) : (s.setIgnoreRelease i k b).stations = s.stations := rfl
@[simp] theorem State.setIgnoreRelease_bus (s : State) (i : StationNo) (k : KeyNo) (b : Bool) : (s.setIgnoreRelease i k b).bus = s.bus := rfl
@[simp] theorem State.setIgnoreRelease_nets (s : State) (i : StationNo) (k : KeyNo) (b : Bool) : (s.setIgnoreRelease i k b).nets = s.nets := rfl
@[simp] theorem State.setIgnoreRelease_talk_intents (s : State) (i : StationNo) (k : KeyNo) (b : Bool) : (s.setIgnoreRelease i k b).talk.intents = s.talk.intents := rfl
@[simp] theorem State.setIgnoreRelease_talk_talkers (s : State) (i : StationNo) (k : KeyNo) (b : Bool) : (s.setIgnoreRelease i k b).talk.talkers = s.talk.talkers := rfl
@[simp] theorem State.setIgnoreRelease_talk_arrivals (s : State) (i : StationNo) (k : KeyNo) (b : Bool) : (s.setIgnoreRelease i k b).talk.arrivals = s.talk.arrivals := rfl
@[simp] theorem State.setIgnoreRelease_talk_allCall (s : State) (i : StationNo) (k : KeyNo) (b : Bool) : (s.setIgnoreRelease i k b).talk.allCall = s.talk.allCall := rfl
@[simp] theorem State.setIgnoreRelease_talk_gates (s : State) (i : StationNo) (k : KeyNo) (b : Bool) : (s.setIgnoreRelease i k b).talk.gates = s.talk.gates := rfl
@[simp] theorem State.setIgnoreRelease_talk_releaseIgnore (s : State) (i : StationNo) (k : KeyNo) (b : Bool) : (s.setIgnoreRelease i k b).talk.releaseIgnore = modifyAt s.talk.releaseIgnore i fun v => modifyAt v k fun _ => b := rfl
@[simp] theorem State.setIgnoreRelease_calls (s : State) (i : StationNo) (k : KeyNo) (b : Bool) : (s.setIgnoreRelease i k b).calls = s.calls := rfl
@[simp] theorem State.setIgnoreRelease_plans (s : State) (i : StationNo) (k : KeyNo) (b : Bool) : (s.setIgnoreRelease i k b).plans = s.plans := rfl
@[simp] theorem State.setIgnoreRelease_mix (s : State) (i : StationNo) (k : KeyNo) (b : Bool) : (s.setIgnoreRelease i k b).mix = s.mix := rfl
@[simp] theorem State.setIgnoreRelease_cues (s : State) (i : StationNo) (k : KeyNo) (b : Bool) : (s.setIgnoreRelease i k b).cues = s.cues := rfl
@[simp] theorem State.setIgnoreRelease_lamps (s : State) (i : StationNo) (k : KeyNo) (b : Bool) : (s.setIgnoreRelease i k b).lamps = s.lamps := rfl
@[simp] theorem State.setIgnoreRelease_port (s : State) (i : StationNo) (k : KeyNo) (b : Bool) : (s.setIgnoreRelease i k b).port = s.port := rfl
@[simp] theorem State.setIgnoreRelease_notices (s : State) (i : StationNo) (k : KeyNo) (b : Bool) : (s.setIgnoreRelease i k b).notices = s.notices := rfl
@[simp] theorem State.setIgnoreRelease_pending (s : State) (i : StationNo) (k : KeyNo) (b : Bool) : (s.setIgnoreRelease i k b).pending = s.pending := rfl

/-! `State.modPlan` -/

@[simp] theorem State.modPlan_phase (s : State) (i : StationNo) (f : Plan → Plan) : (s.modPlan i f).phase = s.phase := rfl
@[simp] theorem State.modPlan_now (s : State) (i : StationNo) (f : Plan → Plan) : (s.modPlan i f).now = s.now := rfl
@[simp] theorem State.modPlan_stations (s : State) (i : StationNo) (f : Plan → Plan) : (s.modPlan i f).stations = s.stations := rfl
@[simp] theorem State.modPlan_bus (s : State) (i : StationNo) (f : Plan → Plan) : (s.modPlan i f).bus = s.bus := rfl
@[simp] theorem State.modPlan_nets (s : State) (i : StationNo) (f : Plan → Plan) : (s.modPlan i f).nets = s.nets := rfl
@[simp] theorem State.modPlan_talk (s : State) (i : StationNo) (f : Plan → Plan) : (s.modPlan i f).talk = s.talk := rfl
@[simp] theorem State.modPlan_calls (s : State) (i : StationNo) (f : Plan → Plan) : (s.modPlan i f).calls = s.calls := rfl
@[simp] theorem State.modPlan_plans (s : State) (i : StationNo) (f : Plan → Plan) : (s.modPlan i f).plans = modifyAt s.plans i f := rfl
@[simp] theorem State.modPlan_mix (s : State) (i : StationNo) (f : Plan → Plan) : (s.modPlan i f).mix = s.mix := rfl
@[simp] theorem State.modPlan_cues (s : State) (i : StationNo) (f : Plan → Plan) : (s.modPlan i f).cues = s.cues := rfl
@[simp] theorem State.modPlan_lamps (s : State) (i : StationNo) (f : Plan → Plan) : (s.modPlan i f).lamps = s.lamps := rfl
@[simp] theorem State.modPlan_port (s : State) (i : StationNo) (f : Plan → Plan) : (s.modPlan i f).port = s.port := rfl
@[simp] theorem State.modPlan_notices (s : State) (i : StationNo) (f : Plan → Plan) : (s.modPlan i f).notices = s.notices := rfl
@[simp] theorem State.modPlan_pending (s : State) (i : StationNo) (f : Plan → Plan) : (s.modPlan i f).pending = s.pending := rfl

/-! `State.modChannel` -/

@[simp] theorem State.modChannel_phase (s : State) (i : StationNo) (f : Channel → Channel) : (s.modChannel i f).phase = s.phase := rfl
@[simp] theorem State.modChannel_now (s : State) (i : StationNo) (f : Channel → Channel) : (s.modChannel i f).now = s.now := rfl
@[simp] theorem State.modChannel_stations (s : State) (i : StationNo) (f : Channel → Channel) : (s.modChannel i f).stations = s.stations := rfl
@[simp] theorem State.modChannel_bus (s : State) (i : StationNo) (f : Channel → Channel) : (s.modChannel i f).bus = s.bus := rfl
@[simp] theorem State.modChannel_nets (s : State) (i : StationNo) (f : Channel → Channel) : (s.modChannel i f).nets = s.nets := rfl
@[simp] theorem State.modChannel_talk (s : State) (i : StationNo) (f : Channel → Channel) : (s.modChannel i f).talk = s.talk := rfl
@[simp] theorem State.modChannel_calls (s : State) (i : StationNo) (f : Channel → Channel) : (s.modChannel i f).calls = s.calls := rfl
@[simp] theorem State.modChannel_plans (s : State) (i : StationNo) (f : Channel → Channel) : (s.modChannel i f).plans = s.plans := rfl
@[simp] theorem State.modChannel_mix_channels (s : State) (i : StationNo) (f : Channel → Channel) : (s.modChannel i f).mix.channels = modifyAt s.mix.channels i f := rfl
@[simp] theorem State.modChannel_mix_frames (s : State) (i : StationNo) (f : Channel → Channel) : (s.modChannel i f).mix.frames = s.mix.frames := rfl
@[simp] theorem State.modChannel_mix_blockEnded (s : State) (i : StationNo) (f : Channel → Channel) : (s.modChannel i f).mix.blockEnded = s.mix.blockEnded := rfl
@[simp] theorem State.modChannel_mix_clockPresent (s : State) (i : StationNo) (f : Channel → Channel) : (s.modChannel i f).mix.clockPresent = s.mix.clockPresent := rfl
@[simp] theorem State.modChannel_mix_lastEdge (s : State) (i : StationNo) (f : Channel → Channel) : (s.modChannel i f).mix.lastEdge = s.mix.lastEdge := rfl
@[simp] theorem State.modChannel_cues (s : State) (i : StationNo) (f : Channel → Channel) : (s.modChannel i f).cues = s.cues := rfl
@[simp] theorem State.modChannel_lamps (s : State) (i : StationNo) (f : Channel → Channel) : (s.modChannel i f).lamps = s.lamps := rfl
@[simp] theorem State.modChannel_port (s : State) (i : StationNo) (f : Channel → Channel) : (s.modChannel i f).port = s.port := rfl
@[simp] theorem State.modChannel_notices (s : State) (i : StationNo) (f : Channel → Channel) : (s.modChannel i f).notices = s.notices := rfl
@[simp] theorem State.modChannel_pending (s : State) (i : StationNo) (f : Channel → Channel) : (s.modChannel i f).pending = s.pending := rfl

/-! `State.setCall` -/

@[simp] theorem State.setCall_phase (s : State) (c : CallNo) (v : Option Call) : (s.setCall c v).phase = s.phase := rfl
@[simp] theorem State.setCall_now (s : State) (c : CallNo) (v : Option Call) : (s.setCall c v).now = s.now := rfl
@[simp] theorem State.setCall_stations (s : State) (c : CallNo) (v : Option Call) : (s.setCall c v).stations = s.stations := rfl
@[simp] theorem State.setCall_bus (s : State) (c : CallNo) (v : Option Call) : (s.setCall c v).bus = s.bus := rfl
@[simp] theorem State.setCall_nets (s : State) (c : CallNo) (v : Option Call) : (s.setCall c v).nets = s.nets := rfl
@[simp] theorem State.setCall_talk (s : State) (c : CallNo) (v : Option Call) : (s.setCall c v).talk = s.talk := rfl
@[simp] theorem State.setCall_calls (s : State) (c : CallNo) (v : Option Call) : (s.setCall c v).calls = modifyAt s.calls c fun _ => v := rfl
@[simp] theorem State.setCall_plans (s : State) (c : CallNo) (v : Option Call) : (s.setCall c v).plans = s.plans := rfl
@[simp] theorem State.setCall_mix (s : State) (c : CallNo) (v : Option Call) : (s.setCall c v).mix = s.mix := rfl
@[simp] theorem State.setCall_cues (s : State) (c : CallNo) (v : Option Call) : (s.setCall c v).cues = s.cues := rfl
@[simp] theorem State.setCall_lamps (s : State) (c : CallNo) (v : Option Call) : (s.setCall c v).lamps = s.lamps := rfl
@[simp] theorem State.setCall_port (s : State) (c : CallNo) (v : Option Call) : (s.setCall c v).port = s.port := rfl
@[simp] theorem State.setCall_notices (s : State) (c : CallNo) (v : Option Call) : (s.setCall c v).notices = s.notices := rfl
@[simp] theorem State.setCall_pending (s : State) (c : CallNo) (v : Option Call) : (s.setCall c v).pending = s.pending := rfl

/-! `State.setCue` -/

@[simp] theorem State.setCue_phase (s : State) (c : CueNo) (v : Option Cue) : (s.setCue c v).phase = s.phase := rfl
@[simp] theorem State.setCue_now (s : State) (c : CueNo) (v : Option Cue) : (s.setCue c v).now = s.now := rfl
@[simp] theorem State.setCue_stations (s : State) (c : CueNo) (v : Option Cue) : (s.setCue c v).stations = s.stations := rfl
@[simp] theorem State.setCue_bus (s : State) (c : CueNo) (v : Option Cue) : (s.setCue c v).bus = s.bus := rfl
@[simp] theorem State.setCue_nets (s : State) (c : CueNo) (v : Option Cue) : (s.setCue c v).nets = s.nets := rfl
@[simp] theorem State.setCue_talk (s : State) (c : CueNo) (v : Option Cue) : (s.setCue c v).talk = s.talk := rfl
@[simp] theorem State.setCue_calls (s : State) (c : CueNo) (v : Option Cue) : (s.setCue c v).calls = s.calls := rfl
@[simp] theorem State.setCue_plans (s : State) (c : CueNo) (v : Option Cue) : (s.setCue c v).plans = s.plans := rfl
@[simp] theorem State.setCue_mix (s : State) (c : CueNo) (v : Option Cue) : (s.setCue c v).mix = s.mix := rfl
@[simp] theorem State.setCue_cues (s : State) (c : CueNo) (v : Option Cue) : (s.setCue c v).cues = modifyAt s.cues c fun _ => v := rfl
@[simp] theorem State.setCue_lamps (s : State) (c : CueNo) (v : Option Cue) : (s.setCue c v).lamps = s.lamps := rfl
@[simp] theorem State.setCue_port (s : State) (c : CueNo) (v : Option Cue) : (s.setCue c v).port = s.port := rfl
@[simp] theorem State.setCue_notices (s : State) (c : CueNo) (v : Option Cue) : (s.setCue c v).notices = s.notices := rfl
@[simp] theorem State.setCue_pending (s : State) (c : CueNo) (v : Option Cue) : (s.setCue c v).pending = s.pending := rfl

/-! `State.modLamp` -/

@[simp] theorem State.modLamp_phase (s : State) (i : StationNo) (f : Lamp → Lamp) : (s.modLamp i f).phase = s.phase := rfl
@[simp] theorem State.modLamp_now (s : State) (i : StationNo) (f : Lamp → Lamp) : (s.modLamp i f).now = s.now := rfl
@[simp] theorem State.modLamp_stations (s : State) (i : StationNo) (f : Lamp → Lamp) : (s.modLamp i f).stations = s.stations := rfl
@[simp] theorem State.modLamp_bus (s : State) (i : StationNo) (f : Lamp → Lamp) : (s.modLamp i f).bus = s.bus := rfl
@[simp] theorem State.modLamp_nets (s : State) (i : StationNo) (f : Lamp → Lamp) : (s.modLamp i f).nets = s.nets := rfl
@[simp] theorem State.modLamp_talk (s : State) (i : StationNo) (f : Lamp → Lamp) : (s.modLamp i f).talk = s.talk := rfl
@[simp] theorem State.modLamp_calls (s : State) (i : StationNo) (f : Lamp → Lamp) : (s.modLamp i f).calls = s.calls := rfl
@[simp] theorem State.modLamp_plans (s : State) (i : StationNo) (f : Lamp → Lamp) : (s.modLamp i f).plans = s.plans := rfl
@[simp] theorem State.modLamp_mix (s : State) (i : StationNo) (f : Lamp → Lamp) : (s.modLamp i f).mix = s.mix := rfl
@[simp] theorem State.modLamp_cues (s : State) (i : StationNo) (f : Lamp → Lamp) : (s.modLamp i f).cues = s.cues := rfl
@[simp] theorem State.modLamp_lamps (s : State) (i : StationNo) (f : Lamp → Lamp) : (s.modLamp i f).lamps = modifyAt s.lamps i f := rfl
@[simp] theorem State.modLamp_port (s : State) (i : StationNo) (f : Lamp → Lamp) : (s.modLamp i f).port = s.port := rfl
@[simp] theorem State.modLamp_notices (s : State) (i : StationNo) (f : Lamp → Lamp) : (s.modLamp i f).notices = s.notices := rfl
@[simp] theorem State.modLamp_pending (s : State) (i : StationNo) (f : Lamp → Lamp) : (s.modLamp i f).pending = s.pending := rfl

/-! `State.raise` -/

@[simp] theorem State.raise_phase (s : State) (k : NoticeKind) (subject extra : Nat) : (s.raise k subject extra).phase = s.phase := rfl
@[simp] theorem State.raise_now (s : State) (k : NoticeKind) (subject extra : Nat) : (s.raise k subject extra).now = s.now := rfl
@[simp] theorem State.raise_stations (s : State) (k : NoticeKind) (subject extra : Nat) : (s.raise k subject extra).stations = s.stations := rfl
@[simp] theorem State.raise_bus (s : State) (k : NoticeKind) (subject extra : Nat) : (s.raise k subject extra).bus = s.bus := rfl
@[simp] theorem State.raise_nets (s : State) (k : NoticeKind) (subject extra : Nat) : (s.raise k subject extra).nets = s.nets := rfl
@[simp] theorem State.raise_talk (s : State) (k : NoticeKind) (subject extra : Nat) : (s.raise k subject extra).talk = s.talk := rfl
@[simp] theorem State.raise_calls (s : State) (k : NoticeKind) (subject extra : Nat) : (s.raise k subject extra).calls = s.calls := rfl
@[simp] theorem State.raise_plans (s : State) (k : NoticeKind) (subject extra : Nat) : (s.raise k subject extra).plans = s.plans := rfl
@[simp] theorem State.raise_mix (s : State) (k : NoticeKind) (subject extra : Nat) : (s.raise k subject extra).mix = s.mix := rfl
@[simp] theorem State.raise_cues (s : State) (k : NoticeKind) (subject extra : Nat) : (s.raise k subject extra).cues = s.cues := rfl
@[simp] theorem State.raise_lamps (s : State) (k : NoticeKind) (subject extra : Nat) : (s.raise k subject extra).lamps = s.lamps := rfl
@[simp] theorem State.raise_port (s : State) (k : NoticeKind) (subject extra : Nat) : (s.raise k subject extra).port = s.port := rfl
@[simp] theorem State.raise_notices_records (s : State) (k : NoticeKind) (subject extra : Nat) : (s.raise k subject extra).notices.records = modifyAt s.notices.records k.place fun r => some (raiseRecord r subject extra) := rfl
@[simp] theorem State.raise_notices_mask (s : State) (k : NoticeKind) (subject extra : Nat) : (s.raise k subject extra).notices.mask = s.notices.mask := rfl
@[simp] theorem State.raise_notices_taken (s : State) (k : NoticeKind) (subject extra : Nat) : (s.raise k subject extra).notices.taken = s.notices.taken := rfl
@[simp] theorem State.raise_pending (s : State) (k : NoticeKind) (subject extra : Nat) : (s.raise k subject extra).pending = s.pending := rfl

/-! `State.replan` -/

@[simp] theorem State.replan_phase (s : State) : (s.replan).phase = s.phase := by simp only [State.replan]
@[simp] theorem State.replan_now (s : State) : (s.replan).now = s.now := by simp only [State.replan]
@[simp] theorem State.replan_stations (s : State) : (s.replan).stations = s.stations := by simp only [State.replan]
@[simp] theorem State.replan_bus (s : State) : (s.replan).bus = s.bus := by simp only [State.replan]
@[simp] theorem State.replan_nets (s : State) : (s.replan).nets = s.nets := by simp only [State.replan]
@[simp] theorem State.replan_talk (s : State) : (s.replan).talk = s.talk := by simp only [State.replan]
@[simp] theorem State.replan_calls (s : State) : (s.replan).calls = s.calls := by simp only [State.replan]
@[simp] theorem State.replan_plans (s : State) : (s.replan).plans = mapTable s.plans fun i p => if s.planInUse i then p.revise s i else p := by simp only [State.replan]
@[simp] theorem State.replan_mix (s : State) : (s.replan).mix = s.mix := by simp only [State.replan]
@[simp] theorem State.replan_cues (s : State) : (s.replan).cues = s.cues := by simp only [State.replan]
@[simp] theorem State.replan_lamps (s : State) : (s.replan).lamps = s.lamps := by simp only [State.replan]
@[simp] theorem State.replan_port (s : State) : (s.replan).port = s.port := by simp only [State.replan]
@[simp] theorem State.replan_notices (s : State) : (s.replan).notices = s.notices := by simp only [State.replan]
@[simp] theorem State.replan_pending (s : State) : (s.replan).pending = s.pending := by simp only [State.replan]

/-! `State.beginPlan` -/

@[simp] theorem State.beginPlan_phase (s : State) (i : StationNo) : (s.beginPlan i).phase = s.phase := by unfold State.beginPlan; split <;> rfl
@[simp] theorem State.beginPlan_now (s : State) (i : StationNo) : (s.beginPlan i).now = s.now := by unfold State.beginPlan; split <;> rfl
@[simp] theorem State.beginPlan_stations (s : State) (i : StationNo) : (s.beginPlan i).stations = s.stations := by unfold State.beginPlan; split <;> rfl
@[simp] theorem State.beginPlan_bus (s : State) (i : StationNo) : (s.beginPlan i).bus = s.bus := by unfold State.beginPlan; split <;> rfl
@[simp] theorem State.beginPlan_nets (s : State) (i : StationNo) : (s.beginPlan i).nets = s.nets := by unfold State.beginPlan; split <;> rfl
@[simp] theorem State.beginPlan_talk (s : State) (i : StationNo) : (s.beginPlan i).talk = s.talk := by unfold State.beginPlan; split <;> rfl
@[simp] theorem State.beginPlan_calls (s : State) (i : StationNo) : (s.beginPlan i).calls = s.calls := by unfold State.beginPlan; split <;> rfl
@[simp] theorem State.beginPlan_plans (s : State) (i : StationNo) : (s.beginPlan i).plans = if s.planInUse i then modifyAt s.plans i fun _ => Plan.opening s i else s.plans := by unfold State.beginPlan; split <;> rfl
@[simp] theorem State.beginPlan_mix (s : State) (i : StationNo) : (s.beginPlan i).mix = s.mix := by unfold State.beginPlan; split <;> rfl
@[simp] theorem State.beginPlan_cues (s : State) (i : StationNo) : (s.beginPlan i).cues = s.cues := by unfold State.beginPlan; split <;> rfl
@[simp] theorem State.beginPlan_lamps (s : State) (i : StationNo) : (s.beginPlan i).lamps = s.lamps := by unfold State.beginPlan; split <;> rfl
@[simp] theorem State.beginPlan_port (s : State) (i : StationNo) : (s.beginPlan i).port = s.port := by unfold State.beginPlan; split <;> rfl
@[simp] theorem State.beginPlan_notices (s : State) (i : StationNo) : (s.beginPlan i).notices = s.notices := by unfold State.beginPlan; split <;> rfl
@[simp] theorem State.beginPlan_pending (s : State) (i : StationNo) : (s.beginPlan i).pending = s.pending := by unfold State.beginPlan; split <;> rfl

/-! `State.emptyPlan` -/

@[simp] theorem State.emptyPlan_phase (s : State) (i : StationNo) : (s.emptyPlan i).phase = s.phase := by simp [State.emptyPlan]
@[simp] theorem State.emptyPlan_now (s : State) (i : StationNo) : (s.emptyPlan i).now = s.now := by simp [State.emptyPlan]
@[simp] theorem State.emptyPlan_stations (s : State) (i : StationNo) : (s.emptyPlan i).stations = s.stations := by simp [State.emptyPlan]
@[simp] theorem State.emptyPlan_bus (s : State) (i : StationNo) : (s.emptyPlan i).bus = s.bus := by simp [State.emptyPlan]
@[simp] theorem State.emptyPlan_nets (s : State) (i : StationNo) : (s.emptyPlan i).nets = s.nets := by simp [State.emptyPlan]
@[simp] theorem State.emptyPlan_talk (s : State) (i : StationNo) : (s.emptyPlan i).talk = s.talk := by simp [State.emptyPlan]
@[simp] theorem State.emptyPlan_calls (s : State) (i : StationNo) : (s.emptyPlan i).calls = s.calls := by simp [State.emptyPlan]
@[simp] theorem State.emptyPlan_plans (s : State) (i : StationNo) : (s.emptyPlan i).plans = modifyAt s.plans i fun _ => {} := by simp [State.emptyPlan]
@[simp] theorem State.emptyPlan_mix_channels (s : State) (i : StationNo) : (s.emptyPlan i).mix.channels = modifyAt s.mix.channels i fun c => { c with computed := 0 } := by simp [State.emptyPlan]
@[simp] theorem State.emptyPlan_mix_frames (s : State) (i : StationNo) : (s.emptyPlan i).mix.frames = s.mix.frames := by simp [State.emptyPlan]
@[simp] theorem State.emptyPlan_mix_blockEnded (s : State) (i : StationNo) : (s.emptyPlan i).mix.blockEnded = s.mix.blockEnded := by simp [State.emptyPlan]
@[simp] theorem State.emptyPlan_mix_clockPresent (s : State) (i : StationNo) : (s.emptyPlan i).mix.clockPresent = s.mix.clockPresent := by simp [State.emptyPlan]
@[simp] theorem State.emptyPlan_mix_lastEdge (s : State) (i : StationNo) : (s.emptyPlan i).mix.lastEdge = s.mix.lastEdge := by simp [State.emptyPlan]
@[simp] theorem State.emptyPlan_cues (s : State) (i : StationNo) : (s.emptyPlan i).cues = s.cues := by simp [State.emptyPlan]
@[simp] theorem State.emptyPlan_lamps (s : State) (i : StationNo) : (s.emptyPlan i).lamps = s.lamps := by simp [State.emptyPlan]
@[simp] theorem State.emptyPlan_port (s : State) (i : StationNo) : (s.emptyPlan i).port = s.port := by simp [State.emptyPlan]
@[simp] theorem State.emptyPlan_notices (s : State) (i : StationNo) : (s.emptyPlan i).notices = s.notices := by simp [State.emptyPlan]
@[simp] theorem State.emptyPlan_pending (s : State) (i : StationNo) : (s.emptyPlan i).pending = s.pending := by simp [State.emptyPlan]

/-! `State.putIntent` -/

@[simp] theorem State.putIntent_phase (s : State) (x : Intent) : (s.putIntent x).phase = s.phase := rfl
@[simp] theorem State.putIntent_now (s : State) (x : Intent) : (s.putIntent x).now = s.now := rfl
@[simp] theorem State.putIntent_stations (s : State) (x : Intent) : (s.putIntent x).stations = s.stations := rfl
@[simp] theorem State.putIntent_bus (s : State) (x : Intent) : (s.putIntent x).bus = s.bus := rfl
@[simp] theorem State.putIntent_nets (s : State) (x : Intent) : (s.putIntent x).nets = s.nets := rfl
@[simp] theorem State.putIntent_talk_intents (s : State) (x : Intent) : (s.putIntent x).talk.intents = insertBy Intent.before x (s.withoutIntent x.station x.net) := rfl
@[simp] theorem State.putIntent_talk_talkers (s : State) (x : Intent) : (s.putIntent x).talk.talkers = s.talk.talkers := rfl
@[simp] theorem State.putIntent_talk_arrivals (s : State) (x : Intent) : (s.putIntent x).talk.arrivals = s.talk.arrivals := rfl
@[simp] theorem State.putIntent_talk_allCall (s : State) (x : Intent) : (s.putIntent x).talk.allCall = s.talk.allCall := rfl
@[simp] theorem State.putIntent_talk_gates (s : State) (x : Intent) : (s.putIntent x).talk.gates = s.talk.gates := rfl
@[simp] theorem State.putIntent_talk_releaseIgnore (s : State) (x : Intent) : (s.putIntent x).talk.releaseIgnore = s.talk.releaseIgnore := rfl
@[simp] theorem State.putIntent_calls (s : State) (x : Intent) : (s.putIntent x).calls = s.calls := rfl
@[simp] theorem State.putIntent_plans (s : State) (x : Intent) : (s.putIntent x).plans = s.plans := rfl
@[simp] theorem State.putIntent_mix (s : State) (x : Intent) : (s.putIntent x).mix = s.mix := rfl
@[simp] theorem State.putIntent_cues (s : State) (x : Intent) : (s.putIntent x).cues = s.cues := rfl
@[simp] theorem State.putIntent_lamps (s : State) (x : Intent) : (s.putIntent x).lamps = s.lamps := rfl
@[simp] theorem State.putIntent_port (s : State) (x : Intent) : (s.putIntent x).port = s.port := rfl
@[simp] theorem State.putIntent_notices (s : State) (x : Intent) : (s.putIntent x).notices = s.notices := rfl
@[simp] theorem State.putIntent_pending (s : State) (x : Intent) : (s.putIntent x).pending = s.pending := rfl

/-! `State.freeIntent` -/

@[simp] theorem State.freeIntent_phase (s : State) (i : StationNo) (n : NetNo) : (s.freeIntent i n).phase = s.phase := rfl
@[simp] theorem State.freeIntent_now (s : State) (i : StationNo) (n : NetNo) : (s.freeIntent i n).now = s.now := rfl
@[simp] theorem State.freeIntent_stations (s : State) (i : StationNo) (n : NetNo) : (s.freeIntent i n).stations = s.stations := rfl
@[simp] theorem State.freeIntent_bus (s : State) (i : StationNo) (n : NetNo) : (s.freeIntent i n).bus = s.bus := rfl
@[simp] theorem State.freeIntent_nets (s : State) (i : StationNo) (n : NetNo) : (s.freeIntent i n).nets = s.nets := rfl
@[simp] theorem State.freeIntent_talk_intents (s : State) (i : StationNo) (n : NetNo) : (s.freeIntent i n).talk.intents = s.withoutIntent i n := rfl
@[simp] theorem State.freeIntent_talk_talkers (s : State) (i : StationNo) (n : NetNo) : (s.freeIntent i n).talk.talkers = s.talk.talkers := rfl
@[simp] theorem State.freeIntent_talk_arrivals (s : State) (i : StationNo) (n : NetNo) : (s.freeIntent i n).talk.arrivals = s.talk.arrivals := rfl
@[simp] theorem State.freeIntent_talk_allCall (s : State) (i : StationNo) (n : NetNo) : (s.freeIntent i n).talk.allCall = s.talk.allCall := rfl
@[simp] theorem State.freeIntent_talk_gates (s : State) (i : StationNo) (n : NetNo) : (s.freeIntent i n).talk.gates = s.talk.gates := rfl
@[simp] theorem State.freeIntent_talk_releaseIgnore (s : State) (i : StationNo) (n : NetNo) : (s.freeIntent i n).talk.releaseIgnore = s.talk.releaseIgnore := rfl
@[simp] theorem State.freeIntent_calls (s : State) (i : StationNo) (n : NetNo) : (s.freeIntent i n).calls = s.calls := rfl
@[simp] theorem State.freeIntent_plans (s : State) (i : StationNo) (n : NetNo) : (s.freeIntent i n).plans = s.plans := rfl
@[simp] theorem State.freeIntent_mix (s : State) (i : StationNo) (n : NetNo) : (s.freeIntent i n).mix = s.mix := rfl
@[simp] theorem State.freeIntent_cues (s : State) (i : StationNo) (n : NetNo) : (s.freeIntent i n).cues = s.cues := rfl
@[simp] theorem State.freeIntent_lamps (s : State) (i : StationNo) (n : NetNo) : (s.freeIntent i n).lamps = s.lamps := rfl
@[simp] theorem State.freeIntent_port (s : State) (i : StationNo) (n : NetNo) : (s.freeIntent i n).port = s.port := rfl
@[simp] theorem State.freeIntent_notices (s : State) (i : StationNo) (n : NetNo) : (s.freeIntent i n).notices = s.notices := rfl
@[simp] theorem State.freeIntent_pending (s : State) (i : StationNo) (n : NetNo) : (s.freeIntent i n).pending = s.pending := rfl

/-! `State.issueArrival` -/

@[simp] theorem State.issueArrival_phase (s : State) : (s.issueArrival).phase = s.phase := rfl
@[simp] theorem State.issueArrival_now (s : State) : (s.issueArrival).now = s.now := rfl
@[simp] theorem State.issueArrival_stations (s : State) : (s.issueArrival).stations = s.stations := rfl
@[simp] theorem State.issueArrival_bus (s : State) : (s.issueArrival).bus = s.bus := rfl
@[simp] theorem State.issueArrival_nets (s : State) : (s.issueArrival).nets = s.nets := rfl
@[simp] theorem State.issueArrival_talk_intents (s : State) : (s.issueArrival).talk.intents = s.talk.intents := rfl
@[simp] theorem State.issueArrival_talk_talkers (s : State) : (s.issueArrival).talk.talkers = s.talk.talkers := rfl
@[simp] theorem State.issueArrival_talk_arrivals (s : State) : (s.issueArrival).talk.arrivals = if s.talk.arrivals < lastArrival then s.talk.arrivals + 1 else lastArrival := rfl
@[simp] theorem State.issueArrival_talk_allCall (s : State) : (s.issueArrival).talk.allCall = s.talk.allCall := rfl
@[simp] theorem State.issueArrival_talk_gates (s : State) : (s.issueArrival).talk.gates = s.talk.gates := rfl
@[simp] theorem State.issueArrival_talk_releaseIgnore (s : State) : (s.issueArrival).talk.releaseIgnore = s.talk.releaseIgnore := rfl
@[simp] theorem State.issueArrival_calls (s : State) : (s.issueArrival).calls = s.calls := rfl
@[simp] theorem State.issueArrival_plans (s : State) : (s.issueArrival).plans = s.plans := rfl
@[simp] theorem State.issueArrival_mix (s : State) : (s.issueArrival).mix = s.mix := rfl
@[simp] theorem State.issueArrival_cues (s : State) : (s.issueArrival).cues = s.cues := rfl
@[simp] theorem State.issueArrival_lamps (s : State) : (s.issueArrival).lamps = s.lamps := rfl
@[simp] theorem State.issueArrival_port (s : State) : (s.issueArrival).port = s.port := rfl
@[simp] theorem State.issueArrival_notices (s : State) : (s.issueArrival).notices = s.notices := rfl
@[simp] theorem State.issueArrival_pending (s : State) : (s.issueArrival).pending = s.pending := rfl

/-! `State.answer` -/

@[simp] theorem State.answer_phase (s : State) (q : Request) (x : Status) (v : BitVec 24) : (s.answer q x v).phase = s.phase := rfl
@[simp] theorem State.answer_now (s : State) (q : Request) (x : Status) (v : BitVec 24) : (s.answer q x v).now = s.now := rfl
@[simp] theorem State.answer_stations (s : State) (q : Request) (x : Status) (v : BitVec 24) : (s.answer q x v).stations = s.stations := rfl
@[simp] theorem State.answer_bus (s : State) (q : Request) (x : Status) (v : BitVec 24) : (s.answer q x v).bus = s.bus := rfl
@[simp] theorem State.answer_nets (s : State) (q : Request) (x : Status) (v : BitVec 24) : (s.answer q x v).nets = s.nets := rfl
@[simp] theorem State.answer_talk (s : State) (q : Request) (x : Status) (v : BitVec 24) : (s.answer q x v).talk = s.talk := rfl
@[simp] theorem State.answer_calls (s : State) (q : Request) (x : Status) (v : BitVec 24) : (s.answer q x v).calls = s.calls := rfl
@[simp] theorem State.answer_plans (s : State) (q : Request) (x : Status) (v : BitVec 24) : (s.answer q x v).plans = s.plans := rfl
@[simp] theorem State.answer_mix (s : State) (q : Request) (x : Status) (v : BitVec 24) : (s.answer q x v).mix = s.mix := rfl
@[simp] theorem State.answer_cues (s : State) (q : Request) (x : Status) (v : BitVec 24) : (s.answer q x v).cues = s.cues := rfl
@[simp] theorem State.answer_lamps (s : State) (q : Request) (x : Status) (v : BitVec 24) : (s.answer q x v).lamps = s.lamps := rfl
@[simp] theorem State.answer_port_transaction (s : State) (q : Request) (x : Status) (v : BitVec 24) : (s.answer q x v).port.transaction = s.port.transaction := rfl
@[simp] theorem State.answer_port_latched (s : State) (q : Request) (x : Status) (v : BitVec 24) : (s.answer q x v).port.latched = s.port.latched := rfl
@[simp] theorem State.answer_port_reply (s : State) (q : Request) (x : Status) (v : BitVec 24) : (s.answer q x v).port.reply = .completed x q.kind.code q.record v := rfl
@[simp] theorem State.answer_port_inProcess (s : State) (q : Request) (x : Status) (v : BitVec 24) : (s.answer q x v).port.inProcess = none := rfl
@[simp] theorem State.answer_port_area (s : State) (q : Request) (x : Status) (v : BitVec 24) : (s.answer q x v).port.area = s.port.area := rfl
@[simp] theorem State.answer_port_cursor (s : State) (q : Request) (x : Status) (v : BitVec 24) : (s.answer q x v).port.cursor = s.port.cursor := rfl
@[simp] theorem State.answer_port_staging (s : State) (q : Request) (x : Status) (v : BitVec 24) : (s.answer q x v).port.staging = s.port.staging := rfl
@[simp] theorem State.answer_port_showLock (s : State) (q : Request) (x : Status) (v : BitVec 24) : (s.answer q x v).port.showLock = s.port.showLock := rfl
@[simp] theorem State.answer_port_lockmode (s : State) (q : Request) (x : Status) (v : BitVec 24) : (s.answer q x v).port.lockmode = s.port.lockmode := rfl
@[simp] theorem State.answer_notices (s : State) (q : Request) (x : Status) (v : BitVec 24) : (s.answer q x v).notices = s.notices := rfl
@[simp] theorem State.answer_pending (s : State) (q : Request) (x : Status) (v : BitVec 24) : (s.answer q x v).pending = s.pending := rfl

/-! `State.holdRequest` -/

@[simp] theorem State.holdRequest_phase (s : State) (q : Request) : (s.holdRequest q).phase = s.phase := rfl
@[simp] theorem State.holdRequest_now (s : State) (q : Request) : (s.holdRequest q).now = s.now := rfl
@[simp] theorem State.holdRequest_stations (s : State) (q : Request) : (s.holdRequest q).stations = s.stations := rfl
@[simp] theorem State.holdRequest_bus (s : State) (q : Request) : (s.holdRequest q).bus = s.bus := rfl
@[simp] theorem State.holdRequest_nets (s : State) (q : Request) : (s.holdRequest q).nets = s.nets := rfl
@[simp] theorem State.holdRequest_talk (s : State) (q : Request) : (s.holdRequest q).talk = s.talk := rfl
@[simp] theorem State.holdRequest_calls (s : State) (q : Request) : (s.holdRequest q).calls = s.calls := rfl
@[simp] theorem State.holdRequest_plans (s : State) (q : Request) : (s.holdRequest q).plans = s.plans := rfl
@[simp] theorem State.holdRequest_mix (s : State) (q : Request) : (s.holdRequest q).mix = s.mix := rfl
@[simp] theorem State.holdRequest_cues (s : State) (q : Request) : (s.holdRequest q).cues = s.cues := rfl
@[simp] theorem State.holdRequest_lamps (s : State) (q : Request) : (s.holdRequest q).lamps = s.lamps := rfl
@[simp] theorem State.holdRequest_port_transaction (s : State) (q : Request) : (s.holdRequest q).port.transaction = s.port.transaction := rfl
@[simp] theorem State.holdRequest_port_latched (s : State) (q : Request) : (s.holdRequest q).port.latched = s.port.latched := rfl
@[simp] theorem State.holdRequest_port_reply (s : State) (q : Request) : (s.holdRequest q).port.reply = .inProgress q.kind.code q.record := rfl
@[simp] theorem State.holdRequest_port_inProcess (s : State) (q : Request) : (s.holdRequest q).port.inProcess = some q := rfl
@[simp] theorem State.holdRequest_port_area (s : State) (q : Request) : (s.holdRequest q).port.area = s.port.area := rfl
@[simp] theorem State.holdRequest_port_cursor (s : State) (q : Request) : (s.holdRequest q).port.cursor = s.port.cursor := rfl
@[simp] theorem State.holdRequest_port_staging (s : State) (q : Request) : (s.holdRequest q).port.staging = s.port.staging := rfl
@[simp] theorem State.holdRequest_port_showLock (s : State) (q : Request) : (s.holdRequest q).port.showLock = s.port.showLock := rfl
@[simp] theorem State.holdRequest_port_lockmode (s : State) (q : Request) : (s.holdRequest q).port.lockmode = s.port.lockmode := rfl
@[simp] theorem State.holdRequest_notices (s : State) (q : Request) : (s.holdRequest q).notices = s.notices := rfl
@[simp] theorem State.holdRequest_pending (s : State) (q : Request) : (s.holdRequest q).pending = s.pending := rfl

/-! `State.setTransaction` -/

@[simp] theorem State.setTransaction_phase (s : State) (x : Transaction) : (s.setTransaction x).phase = s.phase := rfl
@[simp] theorem State.setTransaction_now (s : State) (x : Transaction) : (s.setTransaction x).now = s.now := rfl
@[simp] theorem State.setTransaction_stations (s : State) (x : Transaction) : (s.setTransaction x).stations = s.stations := rfl
@[simp] theorem State.setTransaction_bus (s : State) (x : Transaction) : (s.setTransaction x).bus = s.bus := rfl
@[simp] theorem State.setTransaction_nets (s : State) (x : Transaction) : (s.setTransaction x).nets = s.nets := rfl
@[simp] theorem State.setTransaction_talk (s : State) (x : Transaction) : (s.setTransaction x).talk = s.talk := rfl
@[simp] theorem State.setTransaction_calls (s : State) (x : Transaction) : (s.setTransaction x).calls = s.calls := rfl
@[simp] theorem State.setTransaction_plans (s : State) (x : Transaction) : (s.setTransaction x).plans = s.plans := rfl
@[simp] theorem State.setTransaction_mix (s : State) (x : Transaction) : (s.setTransaction x).mix = s.mix := rfl
@[simp] theorem State.setTransaction_cues (s : State) (x : Transaction) : (s.setTransaction x).cues = s.cues := rfl
@[simp] theorem State.setTransaction_lamps (s : State) (x : Transaction) : (s.setTransaction x).lamps = s.lamps := rfl
@[simp] theorem State.setTransaction_port_transaction (s : State) (x : Transaction) : (s.setTransaction x).port.transaction = x := rfl
@[simp] theorem State.setTransaction_port_latched (s : State) (x : Transaction) : (s.setTransaction x).port.latched = s.port.latched := rfl
@[simp] theorem State.setTransaction_port_reply (s : State) (x : Transaction) : (s.setTransaction x).port.reply = s.port.reply := rfl
@[simp] theorem State.setTransaction_port_inProcess (s : State) (x : Transaction) : (s.setTransaction x).port.inProcess = s.port.inProcess := rfl
@[simp] theorem State.setTransaction_port_area (s : State) (x : Transaction) : (s.setTransaction x).port.area = s.port.area := rfl
@[simp] theorem State.setTransaction_port_cursor (s : State) (x : Transaction) : (s.setTransaction x).port.cursor = s.port.cursor := rfl
@[simp] theorem State.setTransaction_port_staging (s : State) (x : Transaction) : (s.setTransaction x).port.staging = s.port.staging := rfl
@[simp] theorem State.setTransaction_port_showLock (s : State) (x : Transaction) : (s.setTransaction x).port.showLock = s.port.showLock := rfl
@[simp] theorem State.setTransaction_port_lockmode (s : State) (x : Transaction) : (s.setTransaction x).port.lockmode = s.port.lockmode := rfl
@[simp] theorem State.setTransaction_notices (s : State) (x : Transaction) : (s.setTransaction x).notices = s.notices := rfl
@[simp] theorem State.setTransaction_pending (s : State) (x : Transaction) : (s.setTransaction x).pending = s.pending := rfl

/-! `State.setCursor` -/

@[simp] theorem State.setCursor_phase (s : State) (c : Nat) : (s.setCursor c).phase = s.phase := rfl
@[simp] theorem State.setCursor_now (s : State) (c : Nat) : (s.setCursor c).now = s.now := rfl
@[simp] theorem State.setCursor_stations (s : State) (c : Nat) : (s.setCursor c).stations = s.stations := rfl
@[simp] theorem State.setCursor_bus (s : State) (c : Nat) : (s.setCursor c).bus = s.bus := rfl
@[simp] theorem State.setCursor_nets (s : State) (c : Nat) : (s.setCursor c).nets = s.nets := rfl
@[simp] theorem State.setCursor_talk (s : State) (c : Nat) : (s.setCursor c).talk = s.talk := rfl
@[simp] theorem State.setCursor_calls (s : State) (c : Nat) : (s.setCursor c).calls = s.calls := rfl
@[simp] theorem State.setCursor_plans (s : State) (c : Nat) : (s.setCursor c).plans = s.plans := rfl
@[simp] theorem State.setCursor_mix (s : State) (c : Nat) : (s.setCursor c).mix = s.mix := rfl
@[simp] theorem State.setCursor_cues (s : State) (c : Nat) : (s.setCursor c).cues = s.cues := rfl
@[simp] theorem State.setCursor_lamps (s : State) (c : Nat) : (s.setCursor c).lamps = s.lamps := rfl
@[simp] theorem State.setCursor_port_transaction (s : State) (c : Nat) : (s.setCursor c).port.transaction = s.port.transaction := rfl
@[simp] theorem State.setCursor_port_latched (s : State) (c : Nat) : (s.setCursor c).port.latched = s.port.latched := rfl
@[simp] theorem State.setCursor_port_reply (s : State) (c : Nat) : (s.setCursor c).port.reply = s.port.reply := rfl
@[simp] theorem State.setCursor_port_inProcess (s : State) (c : Nat) : (s.setCursor c).port.inProcess = s.port.inProcess := rfl
@[simp] theorem State.setCursor_port_area (s : State) (c : Nat) : (s.setCursor c).port.area = s.port.area := rfl
@[simp] theorem State.setCursor_port_cursor (s : State) (c : Nat) : (s.setCursor c).port.cursor = c := rfl
@[simp] theorem State.setCursor_port_staging (s : State) (c : Nat) : (s.setCursor c).port.staging = s.port.staging := rfl
@[simp] theorem State.setCursor_port_showLock (s : State) (c : Nat) : (s.setCursor c).port.showLock = s.port.showLock := rfl
@[simp] theorem State.setCursor_port_lockmode (s : State) (c : Nat) : (s.setCursor c).port.lockmode = s.port.lockmode := rfl
@[simp] theorem State.setCursor_notices (s : State) (c : Nat) : (s.setCursor c).notices = s.notices := rfl
@[simp] theorem State.setCursor_pending (s : State) (c : Nat) : (s.setCursor c).pending = s.pending := rfl

/-! `State.setShowLock` -/

@[simp] theorem State.setShowLock_phase (s : State) (b : Bool) : (s.setShowLock b).phase = s.phase := rfl
@[simp] theorem State.setShowLock_now (s : State) (b : Bool) : (s.setShowLock b).now = s.now := rfl
@[simp] theorem State.setShowLock_stations (s : State) (b : Bool) : (s.setShowLock b).stations = s.stations := rfl
@[simp] theorem State.setShowLock_bus (s : State) (b : Bool) : (s.setShowLock b).bus = s.bus := rfl
@[simp] theorem State.setShowLock_nets (s : State) (b : Bool) : (s.setShowLock b).nets = s.nets := rfl
@[simp] theorem State.setShowLock_talk (s : State) (b : Bool) : (s.setShowLock b).talk = s.talk := rfl
@[simp] theorem State.setShowLock_calls (s : State) (b : Bool) : (s.setShowLock b).calls = s.calls := rfl
@[simp] theorem State.setShowLock_plans (s : State) (b : Bool) : (s.setShowLock b).plans = s.plans := rfl
@[simp] theorem State.setShowLock_mix (s : State) (b : Bool) : (s.setShowLock b).mix = s.mix := rfl
@[simp] theorem State.setShowLock_cues (s : State) (b : Bool) : (s.setShowLock b).cues = s.cues := rfl
@[simp] theorem State.setShowLock_lamps (s : State) (b : Bool) : (s.setShowLock b).lamps = s.lamps := rfl
@[simp] theorem State.setShowLock_port_transaction (s : State) (b : Bool) : (s.setShowLock b).port.transaction = s.port.transaction := rfl
@[simp] theorem State.setShowLock_port_latched (s : State) (b : Bool) : (s.setShowLock b).port.latched = s.port.latched := rfl
@[simp] theorem State.setShowLock_port_reply (s : State) (b : Bool) : (s.setShowLock b).port.reply = s.port.reply := rfl
@[simp] theorem State.setShowLock_port_inProcess (s : State) (b : Bool) : (s.setShowLock b).port.inProcess = s.port.inProcess := rfl
@[simp] theorem State.setShowLock_port_area (s : State) (b : Bool) : (s.setShowLock b).port.area = s.port.area := rfl
@[simp] theorem State.setShowLock_port_cursor (s : State) (b : Bool) : (s.setShowLock b).port.cursor = s.port.cursor := rfl
@[simp] theorem State.setShowLock_port_staging (s : State) (b : Bool) : (s.setShowLock b).port.staging = s.port.staging := rfl
@[simp] theorem State.setShowLock_port_showLock (s : State) (b : Bool) : (s.setShowLock b).port.showLock = b := rfl
@[simp] theorem State.setShowLock_port_lockmode (s : State) (b : Bool) : (s.setShowLock b).port.lockmode = s.port.lockmode := rfl
@[simp] theorem State.setShowLock_notices (s : State) (b : Bool) : (s.setShowLock b).notices = s.notices := rfl
@[simp] theorem State.setShowLock_pending (s : State) (b : Bool) : (s.setShowLock b).pending = s.pending := rfl

/-! `State.loadArea` -/

@[simp] theorem State.loadArea_phase (s : State) (r : List Byte) : (s.loadArea r).phase = s.phase := by simp only [State.loadArea]
@[simp] theorem State.loadArea_now (s : State) (r : List Byte) : (s.loadArea r).now = s.now := by simp only [State.loadArea]
@[simp] theorem State.loadArea_stations (s : State) (r : List Byte) : (s.loadArea r).stations = s.stations := by simp only [State.loadArea]
@[simp] theorem State.loadArea_bus (s : State) (r : List Byte) : (s.loadArea r).bus = s.bus := by simp only [State.loadArea]
@[simp] theorem State.loadArea_nets (s : State) (r : List Byte) : (s.loadArea r).nets = s.nets := by simp only [State.loadArea]
@[simp] theorem State.loadArea_talk (s : State) (r : List Byte) : (s.loadArea r).talk = s.talk := by simp only [State.loadArea]
@[simp] theorem State.loadArea_calls (s : State) (r : List Byte) : (s.loadArea r).calls = s.calls := by simp only [State.loadArea]
@[simp] theorem State.loadArea_plans (s : State) (r : List Byte) : (s.loadArea r).plans = s.plans := by simp only [State.loadArea]
@[simp] theorem State.loadArea_mix (s : State) (r : List Byte) : (s.loadArea r).mix = s.mix := by simp only [State.loadArea]
@[simp] theorem State.loadArea_cues (s : State) (r : List Byte) : (s.loadArea r).cues = s.cues := by simp only [State.loadArea]
@[simp] theorem State.loadArea_lamps (s : State) (r : List Byte) : (s.loadArea r).lamps = s.lamps := by simp only [State.loadArea]
@[simp] theorem State.loadArea_port_transaction (s : State) (r : List Byte) : (s.loadArea r).port.transaction = s.port.transaction := by simp only [State.loadArea]
@[simp] theorem State.loadArea_port_latched (s : State) (r : List Byte) : (s.loadArea r).port.latched = s.port.latched := by simp only [State.loadArea]
@[simp] theorem State.loadArea_port_reply (s : State) (r : List Byte) : (s.loadArea r).port.reply = s.port.reply := by simp only [State.loadArea]
@[simp] theorem State.loadArea_port_inProcess (s : State) (r : List Byte) : (s.loadArea r).port.inProcess = s.port.inProcess := by simp only [State.loadArea]
@[simp] theorem State.loadArea_port_area (s : State) (r : List Byte) : (s.loadArea r).port.area = Vector.ofFn fun i => r.getD i.val 0 := by simp only [State.loadArea]
@[simp] theorem State.loadArea_port_cursor (s : State) (r : List Byte) : (s.loadArea r).port.cursor = 0 := by simp only [State.loadArea]
@[simp] theorem State.loadArea_port_staging (s : State) (r : List Byte) : (s.loadArea r).port.staging = s.port.staging := by simp only [State.loadArea]
@[simp] theorem State.loadArea_port_showLock (s : State) (r : List Byte) : (s.loadArea r).port.showLock = s.port.showLock := by simp only [State.loadArea]
@[simp] theorem State.loadArea_port_lockmode (s : State) (r : List Byte) : (s.loadArea r).port.lockmode = s.port.lockmode := by simp only [State.loadArea]
@[simp] theorem State.loadArea_notices (s : State) (r : List Byte) : (s.loadArea r).notices = s.notices := by simp only [State.loadArea]
@[simp] theorem State.loadArea_pending (s : State) (r : List Byte) : (s.loadArea r).pending = s.pending := by simp only [State.loadArea]

end Sys2Proof.Machine
end

