-- ==== Sys2Proof/Laws/Tables.lean ====
section
/-! SUPPORT. Reading a table after one entry, or every entry, has been changed. -/

namespace Sys2Proof.Machine

variable {α : Type} {n : Nat}

@[simp] theorem get_modifyAt_self (v : Vector α n) (i : Fin n) (f : α → α) : (modifyAt v i f).get i = f (v.get i) := by
  simp [modifyAt, Vector.get_eq_getElem]

theorem get_modifyAt_ne (v : Vector α n) (i j : Fin n) (f : α → α) (h : j ≠ i) :
    (modifyAt v i f).get j = v.get j := by
  have h' : ¬ i.val = j.val := fun e => h (Fin.ext e.symm)
  simp [modifyAt, Vector.get_eq_getElem, h']

theorem get_modifyAt (v : Vector α n) (i j : Fin n) (f : α → α) :
    (modifyAt v i f).get j = if j = i then f (v.get i) else v.get j := by
  split
  · next h => subst h; simp
  · next h => exact get_modifyAt_ne v i j f h

@[simp] theorem get_mapTable (v : Vector α n) (f : Fin n → α → α) (i : Fin n) :
    (mapTable v f).get i = f i (v.get i) := by
  simp [mapTable, Vector.get_eq_getElem]

/-- Reading a table given entry by entry. -/
theorem get_ofFn (f : Fin n → α) (i : Fin n) : (Vector.ofFn f).get i = f i := by
  simp [Vector.get_eq_getElem]

@[simp] theorem get_replicate (a : α) (i : Fin n) : (Vector.replicate n a).get i = a := by
  simp [Vector.get_eq_getElem]

/-- Two tables with equal entries are equal. -/
theorem table_ext {v w : Vector α n} (h : ∀ i : Fin n, v.get i = w.get i) : v = w := by
  apply Vector.ext
  intro i hi
  exact h ⟨i, hi⟩

/-- An entry changed to itself leaves the table as it is. -/
theorem modifyAt_eq_self (v : Vector α n) (i : Fin n) (f : α → α) (h : f (v.get i) = v.get i) : modifyAt v i f = v := by
  apply table_ext
  intro j
  rw [get_modifyAt]
  split
  · next e => rw [h, e]
  · rfl

/-- Every number of a table is in the list of its numbers. -/
@[simp] theorem mem_allOf (i : Fin n) : i ∈ allOf n := List.mem_finRange i

/-- The list of a table's numbers holds each once. -/
theorem nodup_allOf (n : Nat) : (allOf n).Nodup := List.nodup_finRange n

end Sys2Proof.Machine
end

