-- ==== Sys2Proof/Laws/Requests.lean ====
section
/-! SUPPORT. What taking a request does, once for all requests, and how a request command is run. -/

namespace Sys2Proof.Machine

open Sys2Proof.Safety

/-- A request the port processes is run on the state with the clock moved, and answered. -/
theorem request_of_ready {k : RequestKind} {t : Time} {r : BitVec 16} {a : BitVec 32} {f : State → Answer} {s : State}
    (h : ready s k r a) :
    request k t r a f s =
      .next ((f (s.clockTo t)).state.answer ⟨k, r, a⟩ (f (s.clockTo t)).status (f (s.clockTo t)).value) := by
  have hp : (s.clockTo t).accepts ⟨k, r, a⟩ = true := by
    rcases h with ⟨h1, h2 | h2⟩ <;> simp [State.accepts, h1, h2]
  simp [request, hp]

/-- A request that is refused leaves the answered state and nothing else. -/
theorem answer_refused (s : State) (t : Time) (k : RequestKind) (r : BitVec 16) (a : BitVec 32) (st : Status) :
    (refuse (s.clockTo t) st).state.answer ⟨k, r, a⟩ (refuse (s.clockTo t) st).status (refuse (s.clockTo t) st).value =
      answered s t k r st 0 := rfl

/-- Running a request on the state with the clock moved, with nothing but an answer, gives the answered state. -/
theorem answer_clockTo (s : State) (t : Time) (k : RequestKind) (r : BitVec 16) (a : BitVec 32) (st : Status)
    (v : BitVec 24) : (s.clockTo t).answer ⟨k, r, a⟩ st v = answered s t k r st v := rfl

theorem withRecord_of_lt {n : Nat} {r : BitVec 16} {s : State} {f : Fin n → Answer} (h : r.toNat < n) :
    withRecord n r s f = f ⟨r.toNat, h⟩ := by
  simp [withRecord, numberBelow, h]

theorem withRecord_of_ge {n : Nat} {r : BitVec 16} {s : State} {f : Fin n → Answer} (h : n ≤ r.toNat) :
    withRecord n r s f = refuse s .badRecord := by
  simp [withRecord, numberBelow, Nat.not_lt.mpr h]

/-- A NET CLOSE that the port processes and that is not refused, taken as far as its first `k` removals, makes them and
stays in process. -/
theorem execNetClose_part {t : Time} {r : BitVec 16} {a : BitVec 32} {s : State} {n : NetNo} {k : Nat}
    (h : ready s .netClose r a) (hr : r.toNat = n.val) (hc : (s.clockTo t).closeRefusal n = none) :
    execNetClose t r ⟨a, some k⟩ s = .next (((s.clockTo t).closeMembers n k).holdRequest ⟨.netClose, r, a⟩) := by
  have ha : (s.clockTo t).accepts ⟨.netClose, r, a⟩ = true := by
    rcases h with ⟨h1, h2 | h2⟩ <;> simp [State.accepts, h1, h2]
  have hn : numberBelow 32 r.toNat = some n := by simp [numberBelow, hr]
  simp [execNetClose, closePart, hn, ha, hc]

@[simp] theorem refuse_state (s : State) (st : Status) : (refuse s st).state = s := rfl
@[simp] theorem refuse_status (s : State) (st : Status) : (refuse s st).status = st := rfl
@[simp] theorem refuse_value (s : State) (st : Status) : (refuse s st).value = 0 := rfl
@[simp] theorem done_state (s : State) (v : BitVec 24) : (done s v).state = s := rfl
@[simp] theorem done_status (s : State) (v : BitVec 24) : (done s v).status = .done := rfl
@[simp] theorem done_value (s : State) (v : BitVec 24) : (done s v).value = v := rfl

end Sys2Proof.Machine
end

