-- ==== Sys2Proof/Laws/Frames.lean ====
section
/-! SUPPORT. What each shared operation can change: one frame lemma for each, in the parts of Safety.lean. -/

namespace Sys2Proof.Safety

open Sys2Proof.Machine

/-! ## Frames compose -/

theorem Part.same_refl (s : State) (p : Part) : p.same s s := by cases p <;> simp [Part.same]

theorem Part.same_trans {s u v : State} {p : Part} (h : p.same s u) (k : p.same u v) : p.same s v := by
  cases p <;> simp_all [Part.same]

theorem onlyChanges_refl {ps : List Part} {s : State} : onlyChanges ps s s := fun p _ => p.same_refl s

theorem onlyChanges_mono {ps qs : List Part} {s u : State} (h : onlyChanges ps s u) (hs : ps ⊆ qs) :
    onlyChanges qs s u := fun p hp => h p fun hq => hp (hs hq)

theorem onlyChanges_trans {ps : List Part} {s u v : State} (h : onlyChanges ps s u) (k : onlyChanges ps u v) :
    onlyChanges ps s v := fun p hp => Part.same_trans (h p hp) (k p hp)

theorem onlyChanges_append {ps qs : List Part} {s u v : State} (h : onlyChanges ps s u) (k : onlyChanges qs u v) :
    onlyChanges (ps ++ qs) s v :=
  onlyChanges_trans (onlyChanges_mono h (List.subset_append_left ..)) (onlyChanges_mono k (List.subset_append_right ..))

theorem onlyChanges_foldl {α : Type} {ps : List Part} {f : State → α → State} (h : ∀ s x, onlyChanges ps s (f s x)) :
    ∀ (xs : List α) (s : State), onlyChanges ps s (xs.foldl f s)
  | [], _ => onlyChanges_refl
  | x :: xs, s => onlyChanges_trans (h s x) (onlyChanges_foldl h xs (f s x))

theorem onlyChanges_ite {ps : List Part} {s u v : State} {c : Prop} [Decidable c] (h : onlyChanges ps s u)
    (k : onlyChanges ps s v) : onlyChanges ps s (if c then u else v) := by split <;> assumption

/-- A stated difference, checked part by part. -/
theorem onlyChanges_of {ps : List Part} {s u : State} (h : ∀ p : Part, p ∈ ps ∨ p.same s u) : onlyChanges ps s u :=
  fun p hp => (h p).resolve_left hp

/-! ## Changes of one record -/

theorem clockTo_frame {s : State} {t : Time} : onlyChanges [.clock] s (s.clockTo t) := by
  intro p hp; cases p <;> simp_all [Part.same, State.clockTo]

theorem modStation_frame {s : State} {i : StationNo} {f : Station → Station} :
    onlyChanges [.stations] s (s.modStation i f) := by
  intro p hp; cases p <;> simp_all [Part.same, State.modStation]

theorem modKey_frame {s : State} {i : StationNo} {k : KeyNo} {f : Key → Key} :
    onlyChanges [.stations] s (s.modKey i k f) := modStation_frame

theorem modBus_frame {s : State} {b : BusNo} {f : Bus → Bus} : onlyChanges [.busRecords] s (s.modBus b f) := by
  intro p hp; cases p <;> simp_all [Part.same, State.modBus]

theorem modLink_frame {s : State} {i : StationNo} {f : Link → Link} : onlyChanges [.links] s (s.modLink i f) := by
  intro p hp; cases p <;> simp_all [Part.same, State.modLink]

theorem modNet_frame {s : State} {n : NetNo} {f : Net → Net} : onlyChanges [.netRecords] s (s.modNet n f) := by
  intro p hp; cases p <;> simp_all [Part.same, State.modNet]

theorem modMember_frame {s : State} {e : EntryNo} {f : Option Member → Option Member} :
    onlyChanges [.memberPool] s (s.modMember e f) := by
  intro p hp; cases p <;> simp_all [Part.same, State.modMember]

theorem modTalkers_frame {s : State} {n : NetNo} {f : List StationNo → List StationNo} :
    onlyChanges [.talkerLists] s (s.modTalkers n f) := by
  intro p hp; cases p <;> simp_all [Part.same, State.modTalkers]

theorem modGate_frame {s : State} {i : StationNo} {f : Gate → Gate} : onlyChanges [.gates] s (s.modGate i f) := by
  intro p hp; cases p <;> simp_all [Part.same, State.modGate]

theorem setIgnoreRelease_frame {s : State} {i : StationNo} {k : KeyNo} {b : Bool} :
    onlyChanges [.releaseIgnore] s (s.setIgnoreRelease i k b) := by
  intro p hp; cases p <;> simp_all [Part.same, State.setIgnoreRelease]

theorem modPlan_frame {s : State} {i : StationNo} {f : Plan → Plan} : onlyChanges [.plans] s (s.modPlan i f) := by
  intro p hp; cases p <;> simp_all [Part.same, State.modPlan]

theorem modChannel_frame {s : State} {i : StationNo} {f : Channel → Channel} :
    onlyChanges [.channels] s (s.modChannel i f) := by
  intro p hp; cases p <;> simp_all [Part.same, State.modChannel]

theorem setCall_frame {s : State} {c : CallNo} {v : Option Call} : onlyChanges [.calls] s (s.setCall c v) := by
  intro p hp; cases p <;> simp_all [Part.same, State.setCall]

theorem setCue_frame {s : State} {c : CueNo} {v : Option Cue} : onlyChanges [.cues] s (s.setCue c v) := by
  intro p hp; cases p <;> simp_all [Part.same, State.setCue]

theorem modLamp_frame {s : State} {i : StationNo} {f : Lamp → Lamp} : onlyChanges [.lamps] s (s.modLamp i f) := by
  intro p hp; cases p <;> simp_all [Part.same, State.modLamp]

theorem raise_frame {s : State} {k : NoticeKind} {subject extra : Nat} :
    onlyChanges [.pendingNotices] s (s.raise k subject extra) := by
  intro p hp; cases p <;> simp_all [Part.same, State.raise]

theorem replan_frame {s : State} : onlyChanges [.plans] s s.replan := by
  intro p hp; cases p <;> simp_all [Part.same, State.replan]

theorem beginPlan_frame {s : State} {i : StationNo} : onlyChanges [.plans] s (s.beginPlan i) :=
  onlyChanges_ite modPlan_frame onlyChanges_refl

theorem emptyPlan_frame {s : State} {i : StationNo} : onlyChanges [.plans, .channels] s (s.emptyPlan i) := by
  intro p hp; cases p <;> simp_all [Part.same, State.emptyPlan, State.modPlan, State.modChannel]

theorem loadArea_frame {s : State} {r : List Byte} : onlyChanges [.area, .cursor] s (s.loadArea r) := by
  intro p hp; cases p <;> simp_all [Part.same, State.loadArea]

theorem answer_frame {s : State} {q : Request} {st : Status} {v : BitVec 24} :
    onlyChanges [.reply, .inProcess] s (s.answer q st v) := by
  intro p hp; cases p <;> simp_all [Part.same, State.answer]

theorem holdRequest_frame {s : State} {q : Request} : onlyChanges [.reply, .inProcess] s (s.holdRequest q) := by
  intro p hp; cases p <;> simp_all [Part.same, State.holdRequest]

/-! ## Talk -/

theorem putIntent_frame {s : State} {x : Intent} : onlyChanges [.intents] s (s.putIntent x) := by
  intro p hp; cases p <;> simp_all [Part.same, State.putIntent]

theorem freeIntent_frame {s : State} {i : StationNo} {n : NetNo} : onlyChanges [.intents] s (s.freeIntent i n) := by
  intro p hp; cases p <;> simp_all [Part.same, State.freeIntent]

theorem issueArrival_frame {s : State} : onlyChanges [.arrivalCounter] s s.issueArrival := by
  intro p hp; cases p <;> simp_all [Part.same, State.issueArrival]

/-- The parts that the talk of a station changes when talkers only leave. -/
def leaveParts : List Part := [.intents, .talkerLists, .plans]

/-- The parts that the talk of a station changes. -/
def talkParts : List Part := .arrivalCounter :: leaveParts

theorem leaveTalkers_frame {s : State} {i : StationNo} {n : NetNo} : onlyChanges leaveParts s (s.leaveTalkers i n) := by
  unfold State.leaveTalkers
  have h := modTalkers_frame (s := s) (n := n) (f := fun l => l.filter (· != i))
  dsimp only
  split
  · exact onlyChanges_mono (onlyChanges_append h replan_frame) (by decide)
  · exact onlyChanges_mono (onlyChanges_append (onlyChanges_append h putIntent_frame) replan_frame) (by decide)

theorem joinTalkers_frame {s : State} {i : StationNo} {n : NetNo} : onlyChanges talkParts s (s.joinTalkers i n) := by
  unfold State.joinTalkers
  split
  · exact onlyChanges_refl
  · exact onlyChanges_mono (onlyChanges_append (onlyChanges_append (onlyChanges_append putIntent_frame
      issueArrival_frame) modTalkers_frame) replan_frame) (by decide)

theorem evaluateTalk_frame {s : State} {i : StationNo} {n : NetNo} : onlyChanges talkParts s (s.evaluateTalk i n) := by
  unfold State.evaluateTalk
  split
  · exact onlyChanges_refl
  · exact onlyChanges_ite joinTalkers_frame
      (onlyChanges_ite (onlyChanges_mono leaveTalkers_frame (by decide)) (onlyChanges_refl))

theorem evaluateAll_frame {s : State} {i : StationNo} : onlyChanges talkParts s (s.evaluateAll i) :=
  onlyChanges_foldl (fun _ _ => evaluateTalk_frame) _ s

theorem dropIntent_frame {s : State} {i : StationNo} {n : NetNo} : onlyChanges leaveParts s (s.dropIntent i n) := by
  unfold State.dropIntent
  split
  · exact onlyChanges_refl
  · exact onlyChanges_trans (onlyChanges_ite leaveTalkers_frame (onlyChanges_refl))
      (onlyChanges_mono freeIntent_frame (by decide))

theorem setOrigins_frame {s : State} {x : Intent} {key : Option KeyOrigin} {remote : Option Time} :
    onlyChanges leaveParts s (s.setOrigins x key remote) :=
  onlyChanges_ite dropIntent_frame (onlyChanges_mono putIntent_frame (by decide))

theorem addOrigin_frame {s : State} {i : StationNo} {n : NetNo} {f : Intent → Intent} :
    onlyChanges talkParts s (s.addOrigin i n f) :=
  onlyChanges_trans (onlyChanges_mono putIntent_frame (by decide)) evaluateTalk_frame

theorem removeKeyOrigin_frame {s : State} {i : StationNo} {n : NetNo} :
    onlyChanges leaveParts s (s.removeKeyOrigin i n) := by
  unfold State.removeKeyOrigin
  split
  · exact setOrigins_frame
  · exact onlyChanges_refl

theorem latchOrigin_frame {s : State} {i : StationNo} {n : NetNo} : onlyChanges [.intents] s (s.latchOrigin i n) := by
  unfold State.latchOrigin
  split
  · exact putIntent_frame
  · exact onlyChanges_refl

theorem addKeyOrigin_frame {s : State} {i : StationNo} {n : NetNo} {o : KeyOrigin} :
    onlyChanges talkParts s (s.addKeyOrigin i n o).state := by
  unfold State.addKeyOrigin
  split
  · exact onlyChanges_refl
  · split
    · exact onlyChanges_refl
    · exact addOrigin_frame

theorem talkPress_frame {s : State} {i : StationNo} {k : KeyNo} {n : NetNo} {m : TalkMode} {t : Time} :
    onlyChanges (.releaseIgnore :: talkParts) s (s.talkPress i k n m t).state := by
  unfold State.talkPress
  split
  · exact onlyChanges_refl
  · exact onlyChanges_mono addKeyOrigin_frame (by decide)
  · exact onlyChanges_mono removeKeyOrigin_frame (by decide)
  · exact onlyChanges_mono addKeyOrigin_frame (by decide)
  · exact onlyChanges_mono addKeyOrigin_frame (by decide)
  · exact onlyChanges_mono (onlyChanges_append removeKeyOrigin_frame setIgnoreRelease_frame) (by decide)
  · exact onlyChanges_refl

theorem talkRelease_frame {s : State} {i : StationNo} {k : KeyNo} {n : NetNo} {m : TalkMode} {t : Time} :
    onlyChanges (.releaseIgnore :: leaveParts) s (s.talkRelease i k n m t) := by
  unfold State.talkRelease
  split
  · exact onlyChanges_ite (onlyChanges_mono removeKeyOrigin_frame (by decide)) (onlyChanges_refl)
  · exact onlyChanges_refl
  · split
    · exact onlyChanges_mono setIgnoreRelease_frame (by decide)
    · split
      · exact onlyChanges_ite (onlyChanges_mono latchOrigin_frame (by decide))
          (onlyChanges_mono removeKeyOrigin_frame (by decide))
      · exact onlyChanges_refl

theorem endTalkBinding_frame {s : State} {i : StationNo} {k : KeyNo} {n : NetNo} :
    onlyChanges (.releaseIgnore :: leaveParts) s (s.endTalkBinding i k n) :=
  onlyChanges_trans (onlyChanges_ite (onlyChanges_mono removeKeyOrigin_frame (by decide)) (onlyChanges_refl))
    (onlyChanges_mono setIgnoreRelease_frame (by decide))

theorem endAllCall_frame {s : State} : onlyChanges [.allCall, .plans] s s.endAllCall := by
  intro p hp; cases p <;> simp_all [Part.same, State.endAllCall, State.replan]

theorem allCallPress_frame {s : State} {i : StationNo} {k : KeyNo} :
    onlyChanges [.allCall, .arrivalCounter, .plans] s (s.allCallPress i k).state := by
  unfold State.allCallPress
  split
  · exact onlyChanges_refl
  · intro p hp; cases p <;> simp_all [Part.same, State.issueArrival, State.replan]

theorem allCallRelease_frame {s : State} {i : StationNo} {k : KeyNo} :
    onlyChanges [.allCall, .plans] s (s.allCallRelease i k) := by
  unfold State.allCallRelease
  split
  · exact onlyChanges_ite endAllCall_frame (onlyChanges_refl)
  · exact onlyChanges_refl

theorem talkExit_frame {s : State} {i : StationNo} : onlyChanges (.allCall :: leaveParts) s (s.talkExit i) := by
  unfold State.talkExit
  have h : onlyChanges (.allCall :: leaveParts) s ((s.intentNets i).foldl (fun s n => s.dropIntent i n) s) :=
    onlyChanges_foldl (fun s n => onlyChanges_mono dropIntent_frame (by decide)) _ s
  simp only
  split
  · split
    · exact onlyChanges_trans h (onlyChanges_mono endAllCall_frame (by decide))
    · exact h
  · exact h

theorem moveGate_frame {s : State} {i : StationNo} {peak : Nat} :
    onlyChanges (.gates :: talkParts) s (s.moveGate i peak) := by
  unfold State.moveGate
  have h := onlyChanges_mono (modGate_frame (s := s) (i := i) (f := fun _ => s.movedGate i peak))
    (show [Part.gates] ⊆ .gates :: talkParts by decide)
  split
  · exact onlyChanges_refl
  · exact onlyChanges_ite h (onlyChanges_trans h (onlyChanges_mono evaluateAll_frame (by decide)))

/-! ## Calls -/

theorem endCall_frame {s : State} {c : CallNo} {e : Call} {r : EndReason} :
    onlyChanges [.calls, .plans, .pendingNotices] s (s.endCall c e r) := by
  refine onlyChanges_trans (u := if e.isRinging then s.setCall c none else (s.setCall c none).replan)
    (onlyChanges_ite (onlyChanges_mono setCall_frame (by decide))
      (onlyChanges_mono (onlyChanges_append setCall_frame replan_frame) (by decide)))
    (onlyChanges_mono raise_frame (by decide))

theorem connectCall_frame {s : State} {c : CallNo} {e : Call} :
    onlyChanges [.calls, .arrivalCounter, .plans] s (s.connectCall c e) :=
  onlyChanges_append (onlyChanges_append setCall_frame issueArrival_frame) replan_frame

/-- The parts that a press on a call changes. -/
def callParts : List Part := [.calls, .arrivalCounter, .plans, .pendingNotices]

theorem callPress_frame {s : State} {i x : StationNo} : onlyChanges callParts s (s.callPress i x).state := by
  unfold State.callPress
  split
  · split
    · exact onlyChanges_mono setCall_frame (by decide)
    · exact onlyChanges_refl
  · repeat' split
    · exact onlyChanges_refl
    · exact onlyChanges_mono endCall_frame (by decide)
    · exact onlyChanges_mono endCall_frame (by decide)
    · exact onlyChanges_mono connectCall_frame (by decide)

theorem answerPress_frame {s : State} {i : StationNo} : onlyChanges callParts s (s.answerPress i).state := by
  unfold State.answerPress
  split
  · exact onlyChanges_refl
  · repeat' split
    · exact onlyChanges_mono endCall_frame (by decide)
    · exact onlyChanges_mono connectCall_frame (by decide)
    · exact onlyChanges_refl

theorem callExit_frame {s : State} {i : StationNo} :
    onlyChanges [.calls, .plans, .pendingNotices] s (s.callExit i) := by
  unfold State.callExit
  split
  · exact endCall_frame
  · exact onlyChanges_refl

/-! ## Cues and lamps -/

theorem reportEntry_frame {s : State} {c : CueNo} {i : StationNo} {st : EntryStatus} :
    onlyChanges [.cues] s (s.reportEntry c i st) := by
  unfold State.reportEntry
  split
  · exact onlyChanges_ite setCue_frame (onlyChanges_refl)
  · exact onlyChanges_refl

/-- The parts that standing by, GO and acknowledging change. -/
def cueParts : List Part := [.cues, .lamps]

theorem ackPress_frame {s : State} {i : StationNo} : onlyChanges cueParts s (s.ackPress i) := by
  unfold State.ackPress
  split
  · exact onlyChanges_refl
  · exact onlyChanges_mono (onlyChanges_append modLamp_frame reportEntry_frame) (by decide)

theorem lampExit_frame {s : State} {i : StationNo} : onlyChanges cueParts s (s.lampExit i) :=
  onlyChanges_trans (onlyChanges_mono modLamp_frame (by decide))
    (onlyChanges_foldl (fun s e => onlyChanges_mono reportEntry_frame (by decide)) _ _)

theorem lampEntry_frame {s : State} {i : StationNo} : onlyChanges cueParts s (s.lampEntry i) :=
  onlyChanges_trans (onlyChanges_mono modLamp_frame (by decide))
    (onlyChanges_foldl (fun s e => onlyChanges_mono reportEntry_frame (by decide)) _ _)

theorem standBy_frame {s : State} {c : CueNo} {q : Cue} : onlyChanges cueParts s (s.standBy c q) :=
  onlyChanges_trans (onlyChanges_foldl (fun s i => onlyChanges_mono
    (show onlyChanges [.lamps] s (s.appendEntry c i) from modLamp_frame) (by decide)) _ _)
    (onlyChanges_mono setCue_frame (by decide))

theorem removeEntries_frame {xs : List StationNo} {s : State} {c : CueNo} :
    onlyChanges cueParts s (xs.foldl (fun s i => s.removeEntry c i) s) :=
  onlyChanges_foldl (fun s i => onlyChanges_mono
    (show onlyChanges [.lamps] s (s.removeEntry c i) from modLamp_frame) (by decide)) _ _

theorem cancelCue_frame {s : State} {c : CueNo} {q : Cue} : onlyChanges cueParts s (s.cancelCue c q) :=
  onlyChanges_trans removeEntries_frame (onlyChanges_mono setCue_frame (by decide))

theorem giveGo_frame {s : State} {c : CueNo} {q : Cue} {b : Bool} : onlyChanges cueParts s (s.giveGo c q b) :=
  onlyChanges_trans (onlyChanges_trans removeEntries_frame
    (onlyChanges_foldl (fun s i => onlyChanges_mono
      (show onlyChanges [.lamps] s (s.setGoLamp i _) from modLamp_frame) (by decide)) _ _))
    (onlyChanges_mono setCue_frame (by decide))

theorem standbyPress_frame {s : State} {c : CueNo} : onlyChanges cueParts s (s.standbyPress c).state := by
  unfold State.standbyPress
  split
  · exact onlyChanges_refl
  · split
    · split
      · exact standBy_frame
      · exact onlyChanges_refl
    · exact cancelCue_frame
    · exact cancelCue_frame
    · exact onlyChanges_refl

theorem goPress_frame {s : State} {c : CueNo} : onlyChanges cueParts s (s.goPress c).state := by
  unfold State.goPress
  split
  · exact giveGo_frame
  · exact onlyChanges_refl

/-! ## Key edges, loss and return -/

/-- The parts that a key edge can change. -/
def pressParts : List Part :=
  [.stations, .intents, .talkerLists, .arrivalCounter, .allCall, .releaseIgnore, .calls, .plans, .cues, .lamps,
   .pendingNotices]

/-- The parts that a release can change: nothing is placed, joined or acknowledged by one. -/
def releaseParts : List Part := [.stations, .intents, .talkerLists, .allCall, .releaseIgnore, .plans]

theorem settle_frame {ps : List Part} {s : State} {p : Press} (h : onlyChanges ps s p.state) (hs : Part.stations ∈ ps)
    {i : StationNo} {k : KeyNo} {t : Time} : onlyChanges ps s (p.settle i k t) :=
  onlyChanges_ite h (onlyChanges_trans h (onlyChanges_mono modKey_frame (by simpa using hs)))

theorem dispatchPress_frame {s : State} {i : StationNo} {k : KeyNo} {t : Time} :
    onlyChanges pressParts s (s.dispatchPress i k t) := by
  unfold State.dispatchPress
  refine onlyChanges_trans (u := s.setStale i k false)
    (onlyChanges_mono (show onlyChanges [.stations] _ _ from modKey_frame) (by decide)) ?_
  dsimp only
  split
  · exact onlyChanges_refl
  · exact settle_frame (ps := pressParts) (onlyChanges_mono talkPress_frame (by decide)) (by decide)
  · exact settle_frame (ps := pressParts) (onlyChanges_mono callPress_frame (by decide)) (by decide)
  · exact settle_frame (ps := pressParts) (onlyChanges_mono answerPress_frame (by decide)) (by decide)
  · exact settle_frame (ps := pressParts) (onlyChanges_mono allCallPress_frame (by decide)) (by decide)
  · exact settle_frame (ps := pressParts) (onlyChanges_mono standbyPress_frame (by decide)) (by decide)
  · exact settle_frame (ps := pressParts) (onlyChanges_mono goPress_frame (by decide)) (by decide)
  · exact onlyChanges_mono ackPress_frame (by decide)

theorem dispatchRelease_frame {s : State} {i : StationNo} {k : KeyNo} {t : Time} :
    onlyChanges releaseParts s (s.dispatchRelease i k t) := by
  unfold State.dispatchRelease
  split
  · exact onlyChanges_mono (show onlyChanges [.stations] _ _ from modKey_frame) (by decide)
  · split
    · exact onlyChanges_mono talkRelease_frame (by decide)
    · exact onlyChanges_mono allCallRelease_frame (by decide)
    all_goals exact onlyChanges_refl

theorem dispatchEdges_frame {s : State} {i : StationNo} {old new : BitVec 8} {t : Time} :
    onlyChanges pressParts s (s.dispatchEdges i old new t) := by
  refine onlyChanges_foldl (fun s k => ?_) _ s
  split
  · exact dispatchPress_frame
  · exact onlyChanges_mono dispatchRelease_frame (by decide)
  · exact onlyChanges_refl

/-- With every key up in the new set, the edges are releases. -/
theorem dispatchEdges_zero_frame {s : State} {i : StationNo} {old : BitVec 8} {t : Time} :
    onlyChanges releaseParts s (s.dispatchEdges i old 0 t) := by
  refine onlyChanges_foldl (fun s k => ?_) _ s
  split
  · rename_i h; simp [keyDown] at h
  · exact dispatchRelease_frame
  · exact onlyChanges_refl

theorem rebind_frame {s : State} {i : StationNo} {k : KeyNo} {b : Binding} :
    onlyChanges releaseParts s (s.rebind i k b) := by
  unfold State.rebind
  simp only
  refine onlyChanges_trans ?_ (onlyChanges_mono modKey_frame (by decide))
  split
  · exact onlyChanges_mono endTalkBinding_frame (by decide)
  · exact onlyChanges_mono allCallRelease_frame (by decide)
  all_goals exact onlyChanges_refl

/-- The parts that the loss effects can change. -/
def exitParts : List Part :=
  [.stations, .intents, .talkerLists, .allCall, .releaseIgnore, .calls, .plans, .channels, .cues, .lamps,
   .pendingNotices]

theorem upExit_frame {s : State} {i : StationNo} : onlyChanges exitParts s (s.upExit i) :=
  onlyChanges_trans (onlyChanges_mono dispatchEdges_zero_frame (by decide)) <|
    onlyChanges_trans (onlyChanges_mono talkExit_frame (by decide)) <|
    onlyChanges_trans (onlyChanges_mono callExit_frame (by decide)) <|
    onlyChanges_trans (onlyChanges_mono lampExit_frame (by decide)) (onlyChanges_mono emptyPlan_frame (by decide))

theorem upEntry_frame {s : State} {i : StationNo} {keys : BitVec 8} :
    onlyChanges [.links, .cues, .lamps, .plans, .pendingNotices] s (s.upEntry i keys) := by
  have h : onlyChanges [.links, .cues, .lamps, .plans, .pendingNotices] s
      (((s.modLink i fun _ => { state := .up, misses := 0, keys }).lampEntry i).beginPlan i) :=
    onlyChanges_mono (onlyChanges_append (onlyChanges_append modLink_frame lampEntry_frame) beginPlan_frame)
      (by decide)
  exact onlyChanges_ite (onlyChanges_trans h (onlyChanges_mono raise_frame (by decide))) h

/-! ## Buses -/

theorem beginSlot_frame {s : State} {b : BusNo} {a : BusAddress} :
    onlyChanges [.lamps, .busRecords] s (s.beginSlot b a) :=
  onlyChanges_append (show onlyChanges [.lamps] _ _ from modLamp_frame) modBus_frame

theorem nextSlot_frame {s : State} {b : BusNo} {a : BusAddress} :
    onlyChanges [.lamps, .busRecords] s (s.nextSlot b a) := by
  unfold State.nextSlot
  have h := onlyChanges_mono (modBus_frame (s := s) (b := b) (f := fun r => { r with slot := none }))
    (show [Part.busRecords] ⊆ [.lamps, .busRecords] by decide)
  simp only
  split
  · exact onlyChanges_trans h beginSlot_frame
  · exact h

theorem beginCycle_frame {s : State} {b : BusNo} : onlyChanges [.lamps, .busRecords] s (s.beginCycle b) := by
  unfold State.beginCycle
  split
  · exact beginSlot_frame
  · exact onlyChanges_refl

theorem goodSlot_frame {s : State} {i : StationNo} {keys : BitVec 8} {t : Time} :
    onlyChanges (.links :: pressParts) s (s.goodSlot i keys t) := by
  unfold State.goodSlot
  simp only
  split
  · exact onlyChanges_refl
  · exact onlyChanges_mono upEntry_frame (by decide)
  · exact onlyChanges_mono upEntry_frame (by decide)
  · exact onlyChanges_mono (onlyChanges_append modLink_frame dispatchEdges_frame) (by decide)

theorem missedSlot_frame {s : State} {i : StationNo} : onlyChanges (.links :: exitParts) s (s.missedSlot i) := by
  unfold State.missedSlot
  split
  · split
    · exact onlyChanges_mono modLink_frame (by decide)
    · exact onlyChanges_mono (onlyChanges_append (onlyChanges_append modLink_frame raise_frame)
        upExit_frame) (by decide)
  · exact onlyChanges_refl

theorem unpoll_frame {s : State} {i : StationNo} : onlyChanges (.links :: exitParts) s (s.unpoll i) := by
  unfold State.unpoll
  have h := onlyChanges_mono (modLink_frame (s := s) (i := i) (f := fun l => { l with state := .unpolled }))
    (show [Part.links] ⊆ .links :: exitParts by decide)
  exact onlyChanges_ite (onlyChanges_trans h (onlyChanges_mono upExit_frame (by decide))) h

theorem startBus_frame {s : State} {b : BusNo} : onlyChanges [.links, .busRecords, .lamps] s (s.startBus b) :=
  onlyChanges_trans (onlyChanges_foldl (fun s i => onlyChanges_mono
    (show onlyChanges [.links] s (s.probe i) from modLink_frame) (by decide)) _ _)
    (onlyChanges_mono (onlyChanges_append modBus_frame beginCycle_frame) (by decide))

theorem stopBus_frame {s : State} {b : BusNo} : onlyChanges (.busRecords :: .links :: exitParts) s (s.stopBus b) :=
  onlyChanges_trans (onlyChanges_mono modBus_frame (by decide))
    (onlyChanges_foldl (fun s i => onlyChanges_mono unpoll_frame (by decide)) _ _)

theorem takeUp_frame {s : State} {i : StationNo} : onlyChanges [.links, .lamps, .busRecords] s (s.takeUp i) := by
  unfold State.takeUp
  have h := onlyChanges_mono (show onlyChanges [.links] s (s.probe i) from modLink_frame)
    (show [Part.links] ⊆ [.links, .lamps, .busRecords] by decide)
  exact onlyChanges_ite
    (onlyChanges_ite (onlyChanges_trans h (onlyChanges_mono beginSlot_frame (by decide))) h) (onlyChanges_refl)

/-! ## The staging buffer -/

/-- The parts that a flush can change. -/
def flushParts : List Part := [.staging, .memberPool, .stations, .plans]

theorem applyLevel_frame {s : State} {a : Nat} {v : Int} : onlyChanges flushParts s (s.applyLevel a v) := by
  unfold State.applyLevel
  split
  · exact onlyChanges_mono (onlyChanges_append modMember_frame replan_frame) (by decide)
  · exact onlyChanges_mono modStation_frame (by decide)
  · exact onlyChanges_refl

theorem flush_frame {s : State} : onlyChanges flushParts s s.flush := by
  unfold State.flush
  split
  · exact onlyChanges_refl
  · refine onlyChanges_trans (onlyChanges_trans (?_ : onlyChanges flushParts s { s with port := { s.port with staging := none } })
      (onlyChanges_foldl (fun s w => applyLevel_frame) _ _)) (onlyChanges_mono replan_frame (by decide))
    intro p hp; cases p <;> simp_all [Part.same, flushParts]

theorem flushIf_frame {s : State} {c : Bool} : onlyChanges flushParts s (s.flushIf c) :=
  onlyChanges_ite flush_frame (onlyChanges_refl)

/-! ## Members -/

/-- The parts that removing members can change. -/
def removeParts : List Part := [.netRecords, .memberPool, .intents, .talkerLists, .plans]

theorem removeMember_frame {s : State} {e : EntryNo} : onlyChanges removeParts s (s.removeMember e) := by
  unfold State.removeMember
  split
  · exact onlyChanges_refl
  · exact onlyChanges_mono (onlyChanges_append (onlyChanges_append (onlyChanges_append dropIntent_frame modNet_frame)
      modMember_frame) replan_frame) (by decide)

theorem closeMembers_frame {s : State} {n : NetNo} {k : Nat} :
    onlyChanges (flushParts ++ removeParts) s (s.closeMembers n k) :=
  onlyChanges_append flushIf_frame (onlyChanges_foldl (fun _ _ => removeMember_frame) _ _)

theorem closeNet_frame {s : State} {n : NetNo} : onlyChanges (flushParts ++ removeParts) s (s.closeNet n) :=
  onlyChanges_trans closeMembers_frame (onlyChanges_mono modNet_frame (by decide))

/-! ## Audio -/

theorem frame_frame {s : State} {xs : Vector Sample 96} :
    onlyChanges [.plans, .channels, .blockCounter, .audioClock] s (s.frame xs) := by
  intro p hp
  unfold State.frame State.countFrame
  simp only
  split <;> cases p <;> simp_all [Part.same]

theorem newBlock_frame {s : State} : onlyChanges [.channels, .blockCounter] s s.newBlock := by
  intro p hp; cases p <;> simp_all [Part.same, State.newBlock]

theorem loseClock_frame {s : State} :
    onlyChanges [.channels, .blockCounter, .audioClock, .pendingNotices] s s.loseClock := by
  intro p hp; cases p <;> simp_all [Part.same, State.loseClock, State.newBlock, State.raise]

theorem handPeak_frame {s : State} {i : StationNo} :
    onlyChanges (.channels :: .gates :: talkParts) s (s.handPeak i) := by
  unfold State.handPeak
  split
  · exact onlyChanges_append (show onlyChanges [.channels] _ _ from modChannel_frame) moveGate_frame
  · exact onlyChanges_refl

end Sys2Proof.Safety
end

