-- ==== Sys2Proof/Laws/Records.lean ====
section
/-! SUPPORT. Reading one record after one record has been changed, and what ordered insertion keeps. -/

namespace Sys2Proof.Machine

/-! ## Records -/

theorem station_modStation (s : State) (i j : StationNo) (f : Station → Station) :
    (s.modStation i f).station j = if j = i then f (s.station i) else s.station j := get_modifyAt ..

theorem busRec_modBus (s : State) (b d : BusNo) (f : Bus → Bus) :
    (s.modBus b f).busRec d = if d = b then f (s.busRec b) else s.busRec d := get_modifyAt ..

theorem link_modLink (s : State) (i j : StationNo) (f : Link → Link) :
    (s.modLink i f).link j = if j = i then f (s.link i) else s.link j := get_modifyAt ..

theorem net_modNet (s : State) (n m : NetNo) (f : Net → Net) :
    (s.modNet n f).net m = if m = n then f (s.net n) else s.net m := get_modifyAt ..

theorem member_modMember (s : State) (e d : EntryNo) (f : Option Member → Option Member) :
    (s.modMember e f).member d = if d = e then f (s.member e) else s.member d := get_modifyAt ..

theorem talkersOf_modTalkers (s : State) (n m : NetNo) (f : List StationNo → List StationNo) :
    (s.modTalkers n f).talkersOf m = if m = n then f (s.talkersOf n) else s.talkersOf m := get_modifyAt ..

theorem gate_modGate (s : State) (i j : StationNo) (f : Gate → Gate) :
    (s.modGate i f).gate j = if j = i then f (s.gate i) else s.gate j := get_modifyAt ..

theorem plan_modPlan (s : State) (i j : StationNo) (f : Plan → Plan) :
    (s.modPlan i f).plan j = if j = i then f (s.plan i) else s.plan j := get_modifyAt ..

theorem channel_modChannel (s : State) (i j : StationNo) (f : Channel → Channel) :
    (s.modChannel i f).channel j = if j = i then f (s.channel i) else s.channel j := get_modifyAt ..

theorem call_setCall (s : State) (c d : CallNo) (v : Option Call) :
    (s.setCall c v).call d = if d = c then v else s.call d := get_modifyAt ..

theorem cue_setCue (s : State) (c d : CueNo) (v : Option Cue) :
    (s.setCue c v).cue d = if d = c then v else s.cue d := get_modifyAt ..

theorem lamp_modLamp (s : State) (i j : StationNo) (f : Lamp → Lamp) :
    (s.modLamp i f).lamp j = if j = i then f (s.lamp i) else s.lamp j := get_modifyAt ..

theorem key_modKey (s : State) (i j : StationNo) (k l : KeyNo) (f : Key → Key) :
    (s.modKey i k f).key j l = if j = i ∧ l = k then f (s.key i k) else s.key j l := by
  unfold State.key State.modKey
  rw [station_modStation]
  by_cases hj : j = i
  · subst hj
    by_cases hl : l = k <;> simp [get_modifyAt, hl]
  · simp [hj]

theorem ignoresRelease_setIgnoreRelease (s : State) (i j : StationNo) (k l : KeyNo) (b : Bool) :
    (s.setIgnoreRelease i k b).ignoresRelease j l = if j = i ∧ l = k then b else s.ignoresRelease j l := by
  unfold State.ignoresRelease State.setIgnoreRelease
  simp only [get_modifyAt]
  by_cases hj : j = i
  · subst hj
    by_cases hl : l = k <;> simp [hl, get_modifyAt]
  · simp [hj]

theorem plan_replan (s : State) (i : StationNo) :
    s.replan.plan i = if s.planInUse i then (s.plan i).revise s i else s.plan i := get_mapTable ..

theorem plan_beginPlan (s : State) (i j : StationNo) :
    (s.beginPlan i).plan j = if s.planInUse i = true ∧ j = i then Plan.opening s i else s.plan j := by
  unfold State.beginPlan
  by_cases h : s.planInUse i = true
  · simp [h, plan_modPlan]
  · simp [h]

theorem plan_emptyPlan (s : State) (i j : StationNo) :
    (s.emptyPlan i).plan j = if j = i then {} else s.plan j := plan_modPlan ..

theorem slots_modSlot (p : Plan) (k l : SlotNo) (f : Slot → Slot) :
    (p.modSlot k f).slots.get l = if l = k then f (p.slots.get k) else p.slots.get l := get_modifyAt ..

/-! ## Audio ports (R2, R109) -/

/-- A station is the one at its own port and slot. -/
theorem audioStation_of_station (i : StationNo) : audioStation (audioPortOf i) (audioSlotOf i) = i := by
  apply Fin.ext
  simp only [audioStation, audioPortOf, audioSlotOf]
  omega

/-- What a station says in a frame is what its slot of its port carries. -/
theorem samplesOf_get (ports : AudioPorts) (i : StationNo) :
    (samplesOf ports).get i = slotSample ((ports.get (audioPortOf i)).get (audioSlotOf i)) := by
  rw [samplesOf, get_ofFn]

/-- The slot of a station's port carries what is sent to the station. -/
theorem audioOut_get (s : State) (i : StationNo) :
    (s.audioOut.get (audioPortOf i)).get (audioSlotOf i) = outputSlot (s.channel i).sent := by
  rw [State.audioOut, get_ofFn, get_ofFn, audioStation_of_station]

/-! ## Lists -/

section Lists

variable {α : Type} (before : α → α → Bool)

/-- Insertion adds the element and nothing else. -/
theorem insertBy_perm (x : α) : ∀ xs : List α, (insertBy before x xs).Perm (x :: xs)
  | [] => .refl _
  | y :: ys => by
    unfold insertBy
    split
    · exact .refl _
    · exact (List.Perm.cons y (insertBy_perm x ys)).trans (.swap x y ys)

theorem mem_insertBy {x y : α} {xs : List α} : y ∈ insertBy before x xs ↔ y = x ∨ y ∈ xs := by
  rw [(insertBy_perm before x xs).mem_iff, List.mem_cons]

theorem length_insertBy (x : α) (xs : List α) : (insertBy before x xs).length = xs.length + 1 :=
  (insertBy_perm before x xs).length_eq

theorem sortBy_go_perm : ∀ (xs acc : List α), (xs.foldl (fun acc x => insertBy before x acc) acc).Perm (xs ++ acc)
  | [], _ => .refl _
  | x :: xs, acc =>
    (sortBy_go_perm xs (insertBy before x acc)).trans
      ((List.Perm.append_left xs (insertBy_perm before x acc)).trans List.perm_middle)

/-- Putting a list in order keeps its elements. -/
theorem sortBy_perm (xs : List α) : (sortBy before xs).Perm xs := by
  have := sortBy_go_perm before xs []
  rwa [List.append_nil] at this

/-- Insertion into an ordered list keeps it ordered, for an order that is transitive and compares the new element with
every element of the list. -/
theorem insertBy_pairwise {x : α} (trans : ∀ a b c, before a b = true → before b c = true → before a c = true) :
    ∀ {xs : List α}, (∀ y ∈ xs, before x y = true ∨ before y x = true) →
      xs.Pairwise (fun a b => before a b = true) → (insertBy before x xs).Pairwise (fun a b => before a b = true)
  | [], _, _ => by simp [insertBy]
  | y :: ys, htotal, h => by
    obtain ⟨hy, hys⟩ := List.pairwise_cons.mp h
    unfold insertBy
    split
    · next hxy =>
      refine List.pairwise_cons.mpr ⟨fun z hz => ?_, h⟩
      rcases List.mem_cons.mp hz with rfl | hz
      · exact hxy
      · exact trans _ _ _ hxy (hy z hz)
    · next hxy =>
      refine List.pairwise_cons.mpr ⟨fun z hz => ?_,
        insertBy_pairwise trans (fun z hz => htotal z (List.mem_cons_of_mem _ hz)) hys⟩
      rcases (mem_insertBy before).mp hz with rfl | hz
      · exact (htotal y (List.mem_cons_self ..)).resolve_left hxy
      · exact hy z hz

/-- A search passes over an inserted element that does not satisfy its condition. -/
theorem find?_insertBy_of_not {x : α} {p : α → Bool} (hx : p x = false) :
    ∀ xs : List α, (insertBy before x xs).find? p = xs.find? p
  | [] => by simp [insertBy, hx]
  | y :: ys => by
    unfold insertBy
    split
    · simp [List.find?_cons, hx]
    · simp only [List.find?_cons, find?_insertBy_of_not hx ys]

/-- A search finds an inserted element that alone satisfies its condition. -/
theorem find?_insertBy_of_none {x : α} {p : α → Bool} (hx : p x = true) :
    ∀ {xs : List α}, (∀ y ∈ xs, p y = false) → (insertBy before x xs).find? p = some x
  | [], _ => by simp [insertBy, hx]
  | y :: ys, h => by
    unfold insertBy
    split
    · simp [hx]
    · simp [h y (List.mem_cons_self ..), find?_insertBy_of_none hx fun z hz => h z (List.mem_cons_of_mem _ hz)]

end Lists

/-! ## Intents -/

theorem intent_station {s : State} {i : StationNo} {n : NetNo} {x : Intent} (h : s.intent i n = some x) :
    x.station = i ∧ x.net = n := by
  have := List.find?_some h
  simpa using this

/-- An intent put in use is the one of its pair. -/
theorem intent_putIntent_self (s : State) (x : Intent) : (s.putIntent x).intent x.station x.net = some x := by
  unfold State.intent State.putIntent State.withoutIntent
  apply find?_insertBy_of_none
  · simp
  · intro y hy
    have := (List.mem_filter.mp hy).2
    simp only [Bool.not_eq_true', Bool.and_eq_false_iff, beq_eq_false_iff_ne] at this
    simp only [Bool.and_eq_false_iff, decide_eq_false_iff_not]
    exact this

theorem find?_filter_of_imp {α : Type} {p q : α → Bool} (h : ∀ x, p x = true → q x = true) :
    ∀ xs : List α, (xs.filter q).find? p = xs.find? p
  | [] => rfl
  | x :: xs => by
    by_cases hq : q x = true
    · simp [hq, List.find?_cons, find?_filter_of_imp h xs]
    · have hp : p x = false := by
        cases hpx : p x
        · rfl
        · exact absurd (h x hpx) hq
      simp [hq, hp, find?_filter_of_imp h xs]

theorem intent_withoutIntent_ne (s : State) {i j : StationNo} {n m : NetNo} (h : (j, m) ≠ (i, n)) :
    (s.withoutIntent i n).find? (fun x => x.station = j && x.net = m) = s.intent j m := by
  unfold State.withoutIntent State.intent
  apply find?_filter_of_imp
  intro x hx
  simp only [Bool.and_eq_true, decide_eq_true_eq] at hx
  obtain ⟨rfl, rfl⟩ := hx
  simp only [Bool.not_eq_true', Bool.and_eq_false_iff, beq_eq_false_iff_ne]
  by_contra hc
  push Not at hc
  exact h (by rw [hc.1, hc.2])

/-- An intent put in use leaves the intents of other pairs. -/
theorem intent_putIntent_ne (s : State) (x : Intent) {j : StationNo} {m : NetNo} (h : (j, m) ≠ (x.station, x.net)) :
    (s.putIntent x).intent j m = s.intent j m := by
  have h1 : (s.putIntent x).intent j m =
      (s.withoutIntent x.station x.net).find? (fun y => y.station = j && y.net = m) := by
    apply find?_insertBy_of_not
    simp only [Bool.and_eq_false_iff, decide_eq_false_iff_not]
    by_contra hc
    push Not at hc
    exact h (by rw [hc.1, hc.2])
  rw [h1, intent_withoutIntent_ne s h]

/-- A freed intent is out of use. -/
theorem intent_freeIntent_self (s : State) (i : StationNo) (n : NetNo) : (s.freeIntent i n).intent i n = none := by
  unfold State.intent State.freeIntent State.withoutIntent
  rw [List.find?_eq_none]
  intro x hx
  have := (List.mem_filter.mp hx).2
  simp only [Bool.not_eq_true', Bool.and_eq_false_iff, beq_eq_false_iff_ne] at this
  simp only [Bool.and_eq_true, decide_eq_true_eq, not_and]
  intro h1 h2
  exact this.elim (fun h => h h1) (fun h => h h2)

/-- Freeing one pair's intent leaves the others. -/
theorem intent_freeIntent_ne (s : State) {i j : StationNo} {n m : NetNo} (h : (j, m) ≠ (i, n)) :
    (s.freeIntent i n).intent j m = s.intent j m := intent_withoutIntent_ne s h

end Sys2Proof.Machine
end

