-- ==== Sys2Proof/WellFormed.lean ====
section
/-! DEFINITION. Which terms of `Instr` are commands of the part. Record numbers, arguments and frames may hold any
bits: the part checks them itself and answers with a status. Only the two rows that share the request kind
NOTICE TAKE divide its forms between them (R173). -/

namespace Sys2Proof

/-- The form byte of a NOTICE TAKE argument: its first byte (R173, R178). -/
def Instr.noticeForm (argument : BitVec 32) : Byte := argument.extractLsb' 24 8

/-- The form code DETAIL of NOTICE TAKE (R178). -/
def Instr.detailForm : Byte := 1

/-- A term is a command when its row's form is its own: NOTICE_DETAIL is NOTICE TAKE in form DETAIL, and
NOTICE_TAKE is every other form byte, the malformed ones included. -/
def Instr.WellFormed : Instr → Bool
  | .noticeTake _ _ argument => Instr.noticeForm argument != Instr.detailForm
  | .noticeDetail _ _ argument => Instr.noticeForm argument == Instr.detailForm
  | .powerOn .. | .pinReset .. | .pinResetRelease .. | .startupEnd .. | .cpSelectFall .. | .shortFrame .. => true
  | .frameStall .. | .frameComplete .. | .nop .. | .seek .. | .put .. | .get .. | .restart .. => true
  | .stationSet .. | .stationClear .. | .stationRead .. | .keymapSet .. | .gateSet .. => true
  | .busConfigure .. | .busStart .. | .busStop .. => true
  | .netOpen .. | .netClose .. | .memberAdd .. | .memberChange .. | .memberRemove .. | .netRead .. => true
  | .levelOne .. | .levelFour .. | .levelFlush .. | .remoteTalk .. | .remoteRelease .. => true
  | .callPlace .. | .callEnd .. | .callRead .. | .planRead .. => true
  | .cueDefine .. | .cueStandby .. | .cueGo .. | .cueCancel .. | .cueRetire .. | .cueRead .. | .cueSummary .. => true
  | .showLock .. | .showUnlock .. | .noticeMask .. => true
  | .pollCompletelySent .. | .windowClose .. | .replyCharacter .. | .replyGap .. | .guardEnd .. => true
  | .denyMarkExpiry .. | .remoteExpiry .. | .ringExpiry .. | .ackTimerExpiry .. | .goTimerEnd .. => true
  | .goLampExpiry .. | .audioFrame .. | .drainCompletion .. | .blockEnd .. | .gateHoldExpiry .. => true
  | .audioClockLost .. | .audioClockReturn .. | .stagingAgeExpiry .. | .transactionEnd .. => true
  | .stoppedBusCharacterComplete .. => true

end Sys2Proof
end

