-- ==== Sys2Proof/Tests/Slice0.lean ====
section
/-! SUPPORT. Tests of the model on the manual's worked examples and on values worked out by hand from its rules. The
witnesses of the statements' hypotheses stand in Tests/Witnesses.lean. -/

namespace Sys2Proof.Tests

open Sys2Proof.Machine

/-! ## Well-formed commands (R173) -/

/-- NOTICE_TAKE is not the row of form DETAIL. -/
theorem test_noticeTake_form_detail_refused : (Instr.noticeTake 0 0 0x01000000).WellFormed = false := by decide

/-- NOTICE_DETAIL is the row of form DETAIL alone. -/
theorem test_noticeDetail_form_take_refused : (Instr.noticeDetail 0 0 0x00000000).WellFormed = false := by decide

theorem test_notice_forms_accepted :
    (Instr.noticeTake 0 0 0x02000000).WellFormed = true ∧ (Instr.noticeDetail 0 0 0x01FFFFFF).WellFormed = true := by
  decide

/-- No row of the table has bits, so no word spells a command. -/
theorem test_no_word_decodes : decodeTableWord 64 0 = none := by decide

/-! ## Frames (R157, R177) -/

/-- The CRC-8 with polynomial 31h and register FFh from the start gives F7h over the ASCII digits 1 to 9, the check value
published for these parameters (PRESUMED: from outside the manual). -/
theorem test_crc8_check_value :
    crc8 [0x31, 0x32, 0x33, 0x34, 0x35, 0x36, 0x37, 0x38, 0x39] = 0xF7 := by decide +kernel

/-- LEVEL ONE of address 3 with value -20 (section 10.10): 28h, 0003h, ECh and three zeros before the check. -/
theorem test_levelOne_frame_bytes :
    (Request.frame ⟨.levelOne, 3, 0xEC000000⟩).extractLsb' 8 56 = 0x280003EC000000#56 := by decide +kernel

/-- The MEMBER ADD of section 10.10 read from its frame. -/
theorem test_memberAdd_frame_read :
    frameRequest (0x220003#24 ++ 0x1F02FA00#32 ++ 0#8) = some ⟨.memberAdd, 3, 0x1F02FA00⟩ := by decide +kernel

/-! ## Conversions (R112, R121): the tables of the manual -/

theorem test_coefficients :
    [24, 12, 2, 0, -4, -6, -8, -10, -12, -20, -48, -96, -143, -144, -145].map coefficientOf =
      [32768, 16384, 9195, 8192, 6502, 5792, 5160, 4597, 4096, 2580, 512, 32, 2, 2, 0] := by decide +kernel

theorem test_thresholds :
    [-6, -7, -40, -48, -120, -128].map thresholdOf = [5931520, 5598720, 832256, 524288, 8192, 5160] := by decide +kernel

/-- A negative product with a remainder rounds toward minus infinity (R116). -/
theorem test_term_rounds_down : termOf (-1) 1 = -1 ∧ termOf 1 8191 = 0 ∧ termOf (-8388608) 8192 = -8388608 := by
  decide +kernel

/-- The ramp from 0 to 9195 takes 36 samples: 35 steps of 256 and one of 235 (section 6.9). -/
theorem test_ramp_to_9195 :
    (List.range 35).foldl (fun c _ => rampStep c 9195) 0 = 8960 ∧ rampStep 8960 9195 = 9195 := by decide +kernel

/-! ## A running part -/

/-- The part after start-up, with nothing configured. -/
def idle : State :=
  { State.reset with phase := .running, port := { ({} : Port) with latched := .none, reply := .none } }

/-- The state that a command leaves; every command of the tests has one. -/
def after (c : Instr) (s : State) : State :=
  match step { s with pending := [c] } with
  | .next u => u
  | .fault _ => s
  | .refused _ => s

/-- A fact about the state that a command leaves. -/
def leaves (c : Instr) (s : State) (fact : State → Bool) : Bool :=
  match step { s with pending := [c] } with
  | .next u => fact u
  | .fault _ => false
  | .refused _ => false

/-- Start-up ends 2 ms after power-on: the slot is NONE and RESTARTED pends with subject POWER (R170, R171). -/
theorem test_startup_end :
    leaves (.startupEnd 24576) State.reset (fun u =>
      u.phase == .running && u.port.reply == .none
        && u.notices.pendingOf .restarted == some { count := 1, first := 1, latest := 1, extra := 0 }) = true := by
  decide +kernel

/-- SEEK 46, then PUT: bytes 46 and 47 are written, two are dropped, the cursor stands at 48 (R162). -/
theorem test_put_at_46 :
    leaves (.put 0 0 0x11223344) (idle.setCursor 46) (fun u =>
      u.port.cursor == 48 && u.port.areaByte 46 == 0x11 && u.port.areaByte 47 == 0x22) = true := by
  decide +kernel

/-- A GET at cursor 46 returns byte 46, byte 47 and 0, and leaves the cursor at 48 (R162). -/
theorem test_get_at_46 :
    leaves (.get 0 0 0) (after (.put 0 0 0x11223344) (idle.setCursor 46) |>.setCursor 46) (fun u =>
      u.port.cursor == 48 && u.port.reply == .completed .done 0x03 0 0x112200) = true := by
  decide +kernel

/-- Station 27, a configured BELTPACK. -/
def withBeltpack : State := after (.stationSet 0 27 0x02000000) idle

/-- STATION SET writes kind and class, every other field at its default (R4). -/
theorem test_stationSet :
    leaves (.stationSet 0 27 0x02000000) idle (fun u =>
      u.station 27 == { configured := true, kind := .beltpack, cls := .crew }
        && u.port.reply == .completed .done 0x10 27 0) = true := by
  decide +kernel

/-- GATE SET with open -3, close -2 and hold 0 stores open -6, close -7 and hold 1 (R10). -/
theorem test_gateSet_clamps_high :
    leaves (.gateSet 0 27 0x01FDFE00) withBeltpack (fun u =>
      u.port.reply == .completed .done 0x14 27 0xFAF901 && (u.station 27).gateOpen == -6
        && (u.station 27).gateClose == -7 && (u.station 27).gateHold == 1) = true := by
  decide +kernel

/-- GATE SET with open -128, close -100 and hold 250 stores open -120, close -121 and hold 200 (R10). -/
theorem test_gateSet_clamps_low :
    leaves (.gateSet 0 27 0x01809CFA) withBeltpack (fun u =>
      u.port.reply == .completed .done 0x14 27 0x8887C8) = true := by
  decide +kernel

/-- LEVEL ONE on the trim of station 27 (address 384 + 27) with +30 is taken as +24 and stays staged for 20 ms (R164,
R165). -/
theorem test_levelOne_clamps :
    leaves (.levelOne 100 411 0x1E000000) withBeltpack (fun u =>
      u.port.reply == .completed .done 0x28 411 0x180000 && (u.station 27).trim == 0
        && (u.port.staging.map Staging.expiry) == some 245860) = true := by
  decide +kernel

/-- A NOTICE TAKE with nothing pending answers zeros; with a pending notice it answers code, count and latest (R173). -/
theorem test_noticeTake :
    leaves (.noticeTake 0 0 0) idle (fun u => u.port.reply == .completed .done 0x4C 0 0) = true
    ∧ leaves (.noticeTake 0 0 0) ((idle.raise .linkUp 5).raise .linkDown 7) (fun u =>
        u.port.reply == .completed .done 0x4C 0 0x020107) = true := by
  constructor <;> decide +kernel

/-- The reply slot NONE is shifted out as 01h, most significant bit first; every bit past the 64th edge is a one (R156,
R158). -/
theorem test_reply_bits :
    let s := idle.setTransaction .receiving
    ((List.range 8).map s.cpDout) = (List.replicate 7 (some false)) ++ [some true]
      ∧ s.cpDout 64 = some true ∧ idle.cpDout 0 = none := by
  decide +kernel

/-- A NET CLOSE of a net with two members, taken as far as its first removal: the second member is left, the net is OPEN
and the request in process; the rest of the request ends it (R47, R48). -/
theorem test_netClose_parts :
    let s := ((idle.modNet 5 fun x => { x with isOpen := true, members := [7, 3] }).modMember 7
      fun _ => some ⟨5, 1, .both, none⟩).modMember 3 fun _ => some ⟨5, 2, .both, none⟩
    let u := after (.netClose 0 5 ⟨0, some 1⟩) s
    ((u.net 5).members = [3] ∧ (u.net 5).isOpen = true ∧ u.member 7 = none ∧ u.port.reply = .inProgress 0x21 5)
      ∧ leaves (.netClose 0 5 ⟨0, none⟩) u (fun v =>
        !(v.net 5).isOpen && (v.member 3).isNone && v.port.reply == .completed .done 0x21 5 0) = true := by
  decide +kernel

/-! ## The slot of section 2.8 -/

/-- Station 27 at bus 2, address 3: UP with no key down, key 3 bound ACK, one PENDING entry for cue 9 not yet shown, and
the go-lamp timer running. Cue 9 stands by for it under policy ALL. -/
def slotExample : State :=
  let s := withBeltpack.modBus 2 fun r => { r with running := true }
  let s := (s.modLink 27 fun l => { l with state := .up }).modKey 27 3 fun k => { k with binding := .ack }
  let s := s.modLamp 27 fun _ => { queue := [{ cue := 9, status := .pending }], goLamp := some 5000000 }
  s.setCue 9 (some
    { state := .standby, department := 1, number := 9, point := 0, policy := .all, direct := false, repeatable := false,
      locked := false, ackWindow := 0, goDisplay := 3, targets := [⟨27, some .pending⟩] })

/-- The poll's bytes are 83h, 06h, 00h, 00h and 77h. -/
theorem test_poll_bytes : slotExample.pollBytes 27 = #v[0x83, 0x06, 0x00, 0x00, 0x77] := by decide +kernel

/-- The first character of that poll, 83h with even parity: the start bit, the data bits from the lowest, the parity bit
one for three ones, and the stop bit (R20). -/
theorem test_character_bits :
    ((slotExample.beginSlot 2 3).sentBits 2).take 11
      = [false, true, true, false, false, false, false, false, true, true, true] := by
  decide +kernel

/-- A BUS STOP in the poll leaves a character on the line, and the driver enabled until it is out (R33). -/
theorem test_abandoned_character :
    let u := after (.busStop 0 2 0) (slotExample.beginSlot 2 3)
    ((u.busRec 2).running = false ∧ (u.busRec 2).finishing = true ∧ (u.busRec 2).driverEnable = true)
      ∧ ((after (.stoppedBusCharacterComplete 0 2) u).busRec 2).driverEnable = false := by
  decide +kernel

/-- The slot with its poll completely sent. -/
def slotSent : State := after (.pollCompletelySent 100 2) (slotExample.beginSlot 2 3)

/-- The entry becomes shown, and the window opens with the driver enable released. -/
theorem test_poll_marks_shown :
    slotSent.lamp 27 = { queue := [{ cue := 9, status := .pending, shown := true, listed := true }], goLamp := some 5000000 }
    ∧ (slotSent.busRec 2).driverEnable = false ∧ ((slotSent.busRec 2).slot.map BusSlot.phase) = some .window := by
  decide +kernel

/-- The four characters 43h, 08h, 02h and B3h with even parity are a good reply with key 3 down. -/
theorem test_reply_good :
    ((((({ address := 3, poll := Vector.replicate 5 0, flash := true, phase := .window } : BusSlot).takeChar
        (receiveChar .even 0x43 true true) 1).takeChar (receiveChar .even 0x08 true true) 2).takeChar
        (receiveChar .even 0x02 true true) 3).takeChar (receiveChar .even 0xB3 true true) 4).goodKeys .beltpack
      = some 0x08 := by
  decide +kernel

/-- A good slot takes the press of key 3 to the entry of cue 9, which becomes ACKED, and the cue READY. -/
theorem test_ack_press_lands :
    ((slotSent.goodSlot 27 0x08 200).lamp 27).queue.map QueueEntry.status = [.acked]
    ∧ ((slotSent.goodSlot 27 0x08 200).cue 9).map Cue.state = some .ready
    ∧ (slotSent.goodSlot 27 0x08 200).link 27 = { state := .up, misses := 0, keys := 0x08 } := by
  decide +kernel

/-- The third miss takes the station DOWN, raises LINK_DOWN and leaves the entry LOST (R31, R32, R149). -/
theorem test_third_miss :
    let u := (slotExample.modLink 27 fun l => { l with misses := 2 }).missedSlot 27
    u.link 27 = { state := .down, misses := 3 } ∧ (u.notices.pendingOf .linkDown).isSome = true
      ∧ (u.lamp 27).queue.map QueueEntry.status = [.lost] ∧ (u.lamp 27).goLamp = some 5000000 := by
  decide +kernel

/-! ## The audio ports (R2, R109) -/

/-- Station 37 speaks in slot 13 of port 1, with the first 24 bits of the slot, and hears there, with 8 zeros after its
sample. -/
theorem test_audio_slot :
    let ports : AudioPorts := Vector.ofFn fun p => Vector.ofFn fun k => if p = 1 ∧ k = 13 then 0x800001FF else 0
    ((samplesOf ports).get 37 = 0x800001 ∧ (samplesOf ports).get 36 = 0 ∧ (samplesOf ports).get 13 = 0)
      ∧ (((idle.modChannel 37 fun x => { x with sent := -2 }).audioOut.get 1).get 13) = 0xFFFFFE00 := by
  decide +kernel

/-! ## The plan of section 6.9 -/

/-- Eight crew talkers hold slots 0 to 7 at level 0 and the ninth waits. -/
def crowd : Plan :=
  { slots := Vector.ofFn fun k => { use := .active ⟨20 + k.val, by omega⟩, target := 8192, current := 8192 }
    waiting := [28]
    candidates := (List.range 9).filterMap fun k =>
      (numberBelow 96 (20 + k)).map fun i => ⟨i, [⟨.net 2, 0, 500 + k⟩]⟩ }

/-- Stations 0 and 1 are of class STAGE_MANAGER. -/
def managers : State :=
  (idle.modStation 0 fun r => { r with cls := .stageManager }).modStation 1 fun r => { r with cls := .stageManager }

/-- Station 23 leaves: slot 3 drains with station 28 bound as its next. -/
def crowdAfterLeave : Plan := (crowd.dropCandidate 23).depart 23

theorem test_plan_departure :
    (crowdAfterLeave.slots.get 3).use = .draining 23 (some 28) ∧ crowdAfterLeave.waiting = [] := by decide +kernel

/-- The stage manager speaks: station 28 goes back to wait, and station 0 is bound as the next of slot 3. -/
def crowdAfterManager : Plan :=
  (crowdAfterLeave.addCandidate ⟨0, [⟨.net 2, 2, 520⟩]⟩).newCandidate managers 0

theorem test_plan_displacement :
    (crowdAfterManager.slots.get 3).use = .draining 23 (some 0) ∧ crowdAfterManager.waiting = [28] := by decide +kernel

/-- Slot 3's drain completes: station 0 is ACTIVE with target 9195. -/
theorem test_plan_drain_completes :
    ((crowdAfterManager.completeDrain 3).slots.get 3).use = .active 0
      ∧ ((crowdAfterManager.completeDrain 3).slots.get 3).target = 9195 := by decide +kernel

/-- The deputy's all-call displaces the lowest-ranked holder, station 27, which joins the waiting list before 28. -/
theorem test_plan_allCall :
    let p := (crowdAfterManager.completeDrain 3).gainPaths managers ⟨1, [⟨.allCall, 0, 530⟩]⟩
    (p.slots.get 7).use = .draining 27 (some 1) ∧ p.waiting = [27, 28] := by decide +kernel

end Sys2Proof.Tests
end

