-- ==== Sys2Proof/Tests/Witnesses.lean ====
section
/-! SUPPORT. For each statement of Certificates/Slice0/Obligations.lean that has hypotheses, a theorem that shows concrete
states and operands that meet them all together, clause by clause. -/

namespace Sys2Proof.Tests

set_option Elab.async false

open Sys2Proof.Machine Sys2Proof.Safety

/-! ## Means -/

/-- The port is free to process any request. -/
def free (s : State) : Bool := s.phase == .running && s.port.inProcess.isNone

theorem ready_of {s : State} (h : free s = true) (k : RequestKind) (r : BitVec 16) (a : BitVec 32) : ready s k r a := by
  simp [free] at h
  exact ⟨h.1, .inl h.2⟩

/-- What holds of every entry in use of a table, checked entry by entry. -/
theorem all_some {α : Type} {n : Nat} {f : Fin n → Option α} {p : α → Bool}
    (h : ((allOf n).all fun i => (f i).all p) = true) (i : Fin n) (x : α) (hx : f i = some x) : p x = true := by
  have := List.all_eq_true.mp h i (mem_allOf i)
  rw [hx] at this
  exact this

/-- A fact about every notice kind, checked one by one. -/
theorem all_kinds {p : NoticeKind → Bool} (h : allNoticeKinds.all p = true) (k : NoticeKind) : p k = true :=
  List.all_eq_true.mp h k (by cases k <;> decide)

/-! ## States -/

/-- A PANEL of class STAGE_MANAGER. -/
def panel : Station := { configured := true, kind := .panel, cls := .stageManager }

/-- A cue with a point number and one target. -/
def cueOf (point : Nat) (state : CueState) (i : StationNo) (status : Option EntryStatus) : Cue :=
  { state, department := 1, number := 2, point, policy := .all, direct := false, repeatable := true, locked := true,
    ackWindow := 5, goDisplay := 2, targets := [⟨i, status⟩] }

/-- The plan of a listener that hears station 0 through net 0 at level 0. -/
def heardPlan : Plan :=
  { slots := Vector.ofFn fun k => if k = 0 then { use := .active 0, target := 8192, current := 256 } else {}
    candidates := [⟨0, [⟨.net 0, 0, 0⟩]⟩] }

/-- Three panels UP on bus 0, with a slot in progress for the first; station 3 is a CUEBOX that is DOWN; station 12, on
the STOPPED bus 1, is a panel; station 95 is unconfigured. Nets 0 and 1 are OPEN, and net 1 is locked. Station 0 talks in
net 0 by key 0 and by the host, and station 1 hears it; stations 1 and 2 ring. Cues 0 to 4 stand at every state. -/
def house : State :=
  let s := idle
  let s := (((s.modStation 0 fun _ => panel).modStation 1 fun _ => panel).modStation 2 fun _ => panel).modStation 3
    fun _ => { panel with kind := .cuebox, cls := .crew }
  let s := s.modStation 12 fun _ => panel
  let s := s.modBus 0 fun r => { r with
    running := true, slot := some { address := 0, poll := Vector.replicate 5 0, flash := true }, driverEnable := true }
  let s := ((s.modLink 0 fun _ => { state := .up, keys := 1 }).modLink 1 fun _ => { state := .up }).modLink 2
    fun _ => { state := .up }
  let s := s.modLink 3 fun _ => { state := .down, misses := 3 }
  let s := (s.modNet 0 fun x => { x with isOpen := true, members := [0, 1] }).modNet 1
    fun x => { x with isOpen := true, locked := true, members := [2] }
  let s := ((s.modMember 0 fun _ => some ⟨0, 0, .both, some 0⟩).modMember 1 fun _ => some ⟨0, 1, .listen, some 0⟩).modMember 2
    fun _ => some ⟨1, 1, .both, some (-6)⟩
  let s := (s.modTalkers 0 fun _ => [0]).modPlan 1 fun _ => heardPlan
  let s := { s with talk := { s.talk with
    intents := [{ station := 0, net := 0, key := some ⟨0, .auto, .held 0⟩, remote := some 50, arrival := some 0 }]
    arrivals := 1 } }
  let s := s.setCall 0 (some ⟨1, 2, .key, .ringing 5⟩)
  let s := (s.setCue 0 (some { cueOf 0 .standby 0 (some .pending) with ackTimer := some 5 })).setCue 1
    (some (cueOf 1 .staged 0 none))
  let s := (s.setCue 2 (some { cueOf 2 .go 0 none with goTimer := some 5 })).setCue 3 (some (cueOf 3 .ready 1 (some .acked)))
  let s := s.setCue 4 (some { cueOf 4 .staged 2 none with direct := true })
  (s.modLamp 0 fun _ => { queue := [{ cue := 0, status := .pending, shown := true, listed := true }], goLamp := some 5 }).modLamp
    1 fun _ => { queue := [{ cue := 3, status := .acked, shown := true }] }

/-- A state whose one call is the ringing one of the house, both parties being listeners that are UP. -/
theorem calls_of {s : State} (key : ∀ c : CallNo, s.call c = if c = 0 then some ⟨1, 2, .key, .ringing 5⟩ else none)
    (caller : s.planInUse 1 = true) (callee : s.planInUse 2 = true) : Calls s := by
  have only : ∀ c e, s.call c = some e → c = 0 ∧ e = ⟨1, 2, .key, .ringing 5⟩ := by
    intro c e h
    rw [key c] at h
    split at h
    · exact ⟨‹_›, (Option.some.inj h).symm⟩
    · cases h
  refine ⟨fun c e h => ?_, fun c d e f i h k _ _ => by rw [(only c e h).1, (only d f k).1]⟩
  rw [(only c e h).2]
  exact ⟨by decide, caller, callee⟩

theorem house_calls : Calls house := calls_of (by decide +kernel) (by decide +kernel) (by decide +kernel)

/-- The house with key 0 of station 0 given a binding. -/
def bound (b : Binding) : State := house.modKey 0 0 fun _ => { binding := b }

/-! ## Steps, resets and notices -/

theorem witness_StepTakesFrontCommand :
    ({ idle with pending := [.startupEnd 0, .nop 0 0 0] } : State).pending = .startupEnd 0 :: [.nop 0 0 0]
      ∧ idle.pending = [] := by decide +kernel

theorem witness_ResetsAndStartup :
    ({ idle with phase := .held } : State).phase = .held ∧ ready idle .restart 0xFFFF 0
      ∧ State.reset.phase = .starting .power :=
  ⟨rfl, ready_of (by decide +kernel) .., rfl⟩

/-- A state in which LINK_UP pends with count 255. -/
def saturated : State :=
  { idle with notices := { idle.notices with
      records := modifyAt idle.notices.records NoticeKind.linkUp.place fun _ => some ⟨255, 1, 2, 0⟩ } }

theorem witness_NoticeRaiseUpdates :
    ∀ j p, saturated.notices.pendingOf j = some p → 1 ≤ p.count ∧ p.count ≤ 255 := by
  intro j p h
  have := all_kinds (p := fun k => (saturated.notices.pendingOf k).all fun p => decide (1 ≤ p.count ∧ p.count ≤ 255))
    (by decide +kernel) j
  rw [h] at this
  exact of_decide_eq_true this

theorem witness_NoticeTakeReturnsBest :
    (ready idle .noticeTake 0 0 ∧ argByte 0 0 = 0 ∧ ∀ k, idle.notices.pendingOf k = none)
    ∧ (ready saturated .noticeTake 0 0 ∧ argByte 0 0 = 0
        ∧ saturated.notices.pendingOf .linkUp = some ⟨255, 1, 2, 0⟩
        ∧ ∀ j : NoticeKind, j.code < NoticeKind.linkUp.code → saturated.notices.pendingOf j = none)
    ∧ argByte 0x01000000 0 = 1 ∧ argByte 0x02000000 0 ≠ 0 ∧ argByte 0x02000000 0 ≠ 1 := by
  refine ⟨⟨ready_of (by decide +kernel) .., by decide, fun k => ?_⟩,
    ⟨ready_of (by decide +kernel) .., by decide, by decide +kernel, fun j hj => ?_⟩, by decide, by decide, by decide⟩
  · exact of_decide_eq_true (all_kinds (p := fun k => decide (idle.notices.pendingOf k = none)) (by decide +kernel) k)
  · have := all_kinds (p := fun j => decide (j.code < NoticeKind.linkUp.code → saturated.notices.pendingOf j = none))
      (by decide +kernel) j
    exact of_decide_eq_true this hj

theorem witness_NoticeMaskAndAttention : ready saturated .noticeMask 0 0x1FF := ready_of (by decide +kernel) ..

/-! ## Transactions, frames and requests -/

/-- The idle part in a transaction that has latched a content. -/
def receiving (latched : Reply) : State :=
  { idle with port := { idle.port with transaction := .receiving, latched } }

/-- A frame that passes the check and names no request. -/
def unknownFrame : BitVec 64 := 0xFF#8 ++ 0#48 ++ frameCheck (0xFF#8 ++ 0#56)

theorem witness_TransactionsAndFrames :
    (idle.port.transaction = .released ∧ idle.phase ≠ .held)
    ∧ (receiving .none).port.transaction = .receiving
    ∧ (idle.setTransaction .completed).port.transaction = .completed
    ∧ (idle.setTransaction .stalled).port.transaction = .stalled
    ∧ ((receiving .none).phase ≠ .held ∧ 63 = 8 * (7 : Fin 8).val + (7 : Fin 8).val ∧ 64 ≤ 64)
    ∧ (idle.setTransaction .awaitingRelease).port.transaction = .awaitingRelease
    ∧ (receiving .starting).port.latched = .starting
    ∧ (receiving (.inProgress 0 0)).port.latched = .inProgress 0 0
    ∧ ((receiving .none).port.latched ≠ .starting ∧ (∀ k r, (receiving .none).port.latched ≠ .inProgress k r)
      ∧ frameChecks 0 = false
      ∧ (frameChecks unknownFrame = true ∧ ∀ k : RequestKind, k.code ≠ frameByte unknownFrame 0)
      ∧ frameChecks (Request.frame ⟨.noticeMask, 0, 0x1FF⟩) = true
      ∧ RequestKind.noticeMask.code = frameByte (Request.frame ⟨.noticeMask, 0, 0x1FF⟩) 0) := by
  refine ⟨⟨rfl, by decide⟩, rfl, rfl, rfl, ⟨by decide, rfl, Nat.le_refl _⟩, rfl, rfl, rfl, by decide, fun _ _ => Reply.noConfusion, by decide +kernel,
    ⟨by decide +kernel, fun k => by cases k <;> decide +kernel⟩, by decide +kernel, by decide +kernel⟩

theorem witness_RequestFramesDecode :
    frameChecks (Request.frame ⟨.nop, 0xFFFF, 1⟩) = true
      ∧ frameRequest (Request.frame ⟨.nop, 0xFFFF, 1⟩) = some ⟨.nop, 0xFFFF, 1⟩ := by decide +kernel

theorem witness_ReplyFramesCheck : frameChecks (Request.frame ⟨.nop, 0, 0⟩) = true := by decide +kernel

theorem witness_RequestsAreAnswered :
    requestOf (.stationRead 7 96 0) = some (7, ⟨.stationRead, 96, 0⟩) ∧ ready idle .stationRead 96 0
      ∧ recordCount .stationRead = some 96 ∧ 96 ≤ (96 : BitVec 16).toNat
      ∧ requestOf (.levelOne 7 767 0) = some (7, ⟨.levelOne, 767, 0⟩) ∧ ready idle .levelOne 767 0 :=
  ⟨rfl, ready_of (by decide +kernel) .., rfl, by decide, rfl, ready_of (by decide +kernel) ..⟩

theorem witness_TransferAreaRequests :
    ready (idle.setCursor 48) .seek 0 0xFF000000 ∧ ready (idle.setCursor 46) .put 0 0 ∧ ready (idle.setCursor 46) .get 0 0 :=
  ⟨ready_of (by decide +kernel) .., ready_of (by decide +kernel) .., ready_of (by decide +kernel) ..⟩

/-- The idle part with LOCKMODE at 1 and the lock engaged. -/
def fixedLock : State := { idle with port := { idle.port with lockmode := true, showLock := true } }

theorem witness_LockRequests :
    ready idle .nop 0 0 ∧ ready fixedLock .showLock 0 0
      ∧ (ready (idle.setShowLock true) .showUnlock 0 0 ∧ (idle.setShowLock true).port.lockmode = false)
      ∧ (ready fixedLock .showUnlock 0 0 ∧ fixedLock.port.lockmode = true) :=
  ⟨ready_of (by decide +kernel) .., ready_of (by decide +kernel) .., ⟨ready_of (by decide +kernel) .., rfl⟩,
    ready_of (by decide +kernel) .., rfl⟩

/-! ## Stations and buses -/

theorem house_free : free house = true := by decide +kernel

theorem witness_StationSetConfigures :
    (ready house .stationSet 95 0x03030000 ∧ (95 : BitVec 16).toNat = (95 : StationNo).val
      ∧ argByte 0x03030000 0 = Kind.cuebox.code ∧ argByte 0x03030000 1 = PriorityClass.stageManager.code
      ∧ (house.station 95).configured = false ∧ (house.busRec (busOf 95)).running = false)
    ∧ (ready house .stationSet 11 0x01000000 ∧ (house.station 11).configured = false
      ∧ (house.busRec (busOf 11)).running = true ∧ (house.busRec (busOf 11)).slot ≠ none)
    ∧ let s := house.modBus 7 fun r => { r with running := true }
      (ready s .stationSet 95 0x01000000 ∧ (s.station 95).configured = false ∧ (s.busRec (busOf 95)).running = true
        ∧ (s.busRec (busOf 95)).slot = none) := by
  refine ⟨⟨ready_of house_free .., ?_⟩, ⟨ready_of house_free .., ?_⟩, ⟨ready_of (by decide +kernel) .., ?_⟩⟩ <;>
    decide +kernel

theorem witness_StationSetReclassifies :
    (ready house .stationSet 12 0x03000000 ∧ (12 : BitVec 16).toNat = (12 : StationNo).val
      ∧ argByte 0x03000000 0 = Kind.cuebox.code ∧ argByte 0x03000000 1 = PriorityClass.crew.code
      ∧ (house.station 12).configured = true ∧ (house.busRec (busOf 12)).running = false
      ∧ (∀ j : KeyNo, (house.key 12 j).binding = .none)
      ∧ ∀ e m, house.member e = some m → m.station ≠ 12)
    ∧ (ready house .stationSet 0 0x01030000 ∧ argByte 0x01030000 0 = Kind.panel.code
      ∧ argByte 0x01030000 1 = PriorityClass.stageManager.code ∧ (house.station 0).configured = true
      ∧ Kind.panel = (house.station 0).kind) := by
  have members (e m) (h : house.member e = some m) : m.station ≠ 12 :=
    of_decide_eq_true (all_some (p := fun m => decide (m.station ≠ 12)) (by decide +kernel) e m h)
  refine ⟨⟨ready_of house_free .., ?_, ?_, ?_, ?_, ?_, ?_, members⟩, ready_of house_free .., ?_⟩ <;> decide +kernel

/-- The house with station 2 alone on the stage: it is UP, talks nowhere, and nothing refers to it; a slot is in progress
for it. -/
def unreferenced : State :=
  ((house.setCall 0 none).setCue 4 none).modBus 0 fun r => { r with
    slot := some { address := 2, poll := Vector.replicate 5 0, flash := false } }

theorem witness_StationClearResets :
    ready unreferenced .stationClear 2 0 ∧ (2 : BitVec 16).toNat = (2 : StationNo).val
      ∧ (unreferenced.station 2).configured = true ∧ unreferenced.isUp 2 = true
      ∧ (∀ e m, unreferenced.member e = some m → m.station ≠ 2)
      ∧ (∀ c q, unreferenced.cue c = some q → (2 : StationNo) ∉ q.targets.map Target.station)
      ∧ (∀ c e, unreferenced.call c = some e → e.caller ≠ 2 ∧ e.callee ≠ 2)
      ∧ ∃ x, (unreferenced.busRec (busOf 2)).slot = some x ∧ x.address = addressOf 2 := by
  have members (e m) (h : unreferenced.member e = some m) : m.station ≠ 2 :=
    of_decide_eq_true (all_some (p := fun m => decide (m.station ≠ 2)) (by decide +kernel) e m h)
  have cues (c q) (h : unreferenced.cue c = some q) : (2 : StationNo) ∉ q.targets.map Target.station :=
    of_decide_eq_true (all_some (p := fun q : Cue => decide ((2 : StationNo) ∉ q.targets.map Target.station))
      (by decide +kernel) c q h)
  have calls (c e) (h : unreferenced.call c = some e) : e.caller ≠ 2 ∧ e.callee ≠ 2 :=
    of_decide_eq_true (all_some (p := fun e : Call => decide (e.caller ≠ 2 ∧ e.callee ≠ 2)) (by decide +kernel) c e h)
  exact ⟨ready_of (by decide +kernel) .., by decide, by decide +kernel, by decide +kernel, members, cues, calls, _, rfl,
    by decide⟩

/-- The house with TALK net 1 LATCHING, ALLCALL, ACK and NONE in the transfer area, an all-call owned by key 1 of station
0, that key bound ALLCALL, and key 2 bound TALK with its release-ignore mark set. -/
def rebinding : State :=
  let s := house.modKey 0 1 fun _ => { binding := .allCall, deny := some 9 }
  let s := (s.modKey 0 2 fun _ => { binding := .talk 0 .auto }).setIgnoreRelease 0 2 true
  let s := { s with talk := { s.talk with allCall := some ⟨0, 1, 0⟩ } }
  s.loadArea [1, 1, 1, 7, 0, 0, 4, 0, 0, 0, 0, 0]

/-- The map that rebinding's area gives in form LOW_CLEAR. -/
def newMap (k : KeyNo) : Binding :=
  if k.val = 0 then .talk 1 .latching else if k.val = 1 then .ack else if k.val = 2 then .allCall else .none

/-- The map that rebinding's area gives in form HIGH_KEEP. -/
def highMap (k : KeyNo) : Binding :=
  if k.val < 4 then (rebinding.key 0 k).binding
  else if k.val = 4 then .talk 1 .latching else if k.val = 5 then .ack else if k.val = 6 then .allCall else .none

/-- The upper keys of rebinding are NONE already, so that LOW_KEEP and LOW_CLEAR give one map. -/
theorem witness_KeymapSetRebinds :
    let area (n : Nat) : Byte := if h : n < 48 then rebinding.port.area.get ⟨n, h⟩ else 0
    let entry (e : Nat) : Option Binding := bindingOf ⟨area (3 * e), area (3 * e + 1), area (3 * e + 2)⟩
    ready rebinding .keymapSet 0 0x02000000 ∧ (0 : BitVec 16).toNat = (0 : StationNo).val
    ∧ (rebinding.station 0).configured = true
    ∧ (argByte 0 0 = 0 ∧ ∀ k : KeyNo,
        if k.val < 4 then entry k.val = some (newMap k) else newMap k = (rebinding.key 0 k).binding)
    ∧ (argByte 0x01000000 0 = 1 ∧ ∀ k : KeyNo,
        if k.val < 4 then highMap k = (rebinding.key 0 k).binding else entry (k.val - 4) = some (highMap k))
    ∧ (argByte 0x02000000 0 = 2 ∧ ∀ k : KeyNo,
        if k.val < 4 then entry k.val = some (newMap k) else newMap k = .none)
    ∧ (∀ k, newMap k ≠ .call 0 ∧ highMap k ≠ .call 0)
    ∧ (∀ m ∈ [newMap, highMap], ∀ j k : KeyNo, (m j).bytes.kind = 1 → (m k).bytes.kind = 1 →
        (m j).bytes.param = (m k).bytes.param → j = k)
    ∧ ((rebinding.key 0 2).binding = .talk 0 .auto ∧ newMap 2 ≠ .talk 0 .auto ∧ rebinding.ignoresRelease 0 2 = true)
    ∧ (rebinding.station 0).cls = .stageManager ∧ (rebinding.station 0).kind ≠ .cuebox := by
  refine ⟨ready_of (by decide +kernel) .., ?_⟩
  decide +kernel

theorem witness_GateSetWrites :
    (ready house .gateSet 0 0x01FDFE00 ∧ (0 : BitVec 16).toNat = (0 : StationNo).val
      ∧ (house.station 0).configured = true ∧ (house.station 0).kind ≠ .cuebox ∧ (argByte 0x01FDFE00 0).toNat ≤ 1
      ∧ (house.station 0).gateEnable = false)
    ∧ let s := (house.modStation 0 fun r => { r with gateEnable := true }).modGate 0 fun _ => ⟨true, 3⟩
      (ready s .gateSet 0 0x00FDFE00 ∧ (s.station 0).configured = true ∧ (s.station 0).gateEnable = true
        ∧ (argByte 0x00FDFE00 0).toNat ≤ 1 ∧ s.isUp 0 = true ∧ s.mayTalk 0 0 = true ∧ (s.net 0).isOpen = true) := by
  refine ⟨⟨ready_of house_free .., ?_⟩, ready_of (by decide +kernel) .., ?_⟩ <;> decide +kernel

theorem witness_BusConfigureAndStart :
    ready house .busConfigure 0 0x02000000 ∧ (0 : BitVec 16).toNat = (0 : BusNo).val ∧ (house.busRec 0).running = true
    ∧ (house.busRec 7).running = false ∧ (argByte 0x01000000 0).toNat < 2 ∧ 6 < (argByte 0x07000000 0).toNat
    ∧ 3 < (argByte 0x02040000 1).toNat
    ∧ 2 ≤ (argByte 0x02030000 0).toNat ∧ (argByte 0x06030000 0).toNat ≤ 6 ∧ argByte 0x06030000 1 = Parity.zero.code
    ∧ ready house .busStart 1 0 ∧ (1 : BitVec 16).toNat = (1 : BusNo).val ∧ (house.busRec 1).running = false
    ∧ (house.station (stationAt 1 0)).configured = true
    ∧ ∀ c : BusAddress, (house.station (stationAt 7 c)).configured = false := by
  refine ⟨ready_of house_free .., ?_, ?_, ?_, ?_, ?_, ?_, ?_, ?_, ?_, ready_of house_free .., ?_⟩ <;> decide +kernel

theorem witness_BusStopUnpolls :
    ready house .busStop 0 0 ∧ (0 : BitVec 16).toNat = (0 : BusNo).val ∧ (house.busRec 0).running = true
      ∧ (house.busRec 1).running = false ∧ busOf 0 = 0 ∧ (house.station 0).configured = true ∧ house.isUp 0 = true
      ∧ (1 : BitVec 16).toNat = (1 : BusNo).val ∧ ready house .busStop 1 0
      ∧ Calls house ∧ (house.call 0).map Call.caller = some 1 ∧ busOf 1 = 0
      ∧ (house.busRec 0).slot.map BusSlot.phase = some .poll := by
  refine ⟨ready_of house_free .., ?_, ?_, ?_, ?_, ?_, ?_, ?_, ready_of house_free .., house_calls, ?_⟩ <;> decide +kernel

theorem witness_LoadingRequests :
    (ready house .stationRead 95 0 ∧ (95 : BitVec 16).toNat = (95 : StationNo).val)
    ∧ (ready house .netRead 0 0 ∧ (0 : BitVec 16).toNat = (0 : NetNo).val ∧ (argByte 0 0).toNat ≤ 3
      ∧ (argByte 0x03000000 0).toNat ≤ 3 ∧ (∀ e ∈ (house.net 0).members, (house.member e).isSome = true)
      ∧ (house.net 0).members[0]? = some 0 ∧ (house.net 0).members[36]? = none ∧ (house.net 0).members.length ≤ 48)
    ∧ (ready house .planRead 0 0 ∧ (0 : BitVec 16).toNat = (0 : StationNo).val)
    ∧ (ready house .cueRead 63 0 ∧ (63 : BitVec 16).toNat = (63 : CueNo).val ∧ house.cue 63 = none
      ∧ (house.cue 0).isSome = true) := by
  refine ⟨⟨ready_of house_free .., by decide⟩, ⟨ready_of house_free .., ?_⟩, ⟨ready_of house_free .., by decide⟩,
    ready_of house_free .., ?_⟩ <;> decide +kernel

/-! ## Nets, levels and remote talk -/

theorem witness_NetOpenOpens :
    (ready house .netOpen 31 0 ∧ (31 : BitVec 16).toNat = (31 : NetNo).val ∧ (house.net 31).isOpen = false
      ∧ (house.port.area.get 8).toNat ≤ 1 ∧ ∀ k : Fin 8, house.port.area.get ⟨k.val, by omega⟩ = 0)
    ∧ let s := house.loadArea [65, 0, 0, 0, 0, 0, 0, 0, 1]
      (ready s .netOpen 31 0 ∧ (s.port.area.get 8).toNat ≤ 1
        ∧ ∀ m, (s.net m).isOpen = true → ∃ k : Fin 8, (s.net m).name.get k ≠ s.port.area.get ⟨k.val, by omega⟩) := by
  refine ⟨⟨ready_of house_free .., ?_⟩, ready_of (by decide +kernel) .., by decide +kernel, fun m hm => ⟨0, ?_⟩⟩
  · decide +kernel
  · revert m; decide +kernel

theorem witness_MemberAddJoins :
    ready house .memberAdd 0 0x02038000 ∧ (0 : BitVec 16).toNat = (0 : NetNo).val
      ∧ (argByte 0x02038000 0).toNat = (2 : StationNo).val ∧ argByte 0x02038000 1 = Rights.both.code
      ∧ (house.net 0).isOpen = true ∧ (house.station 2).configured = true ∧ (house.station 2).kind ≠ .cuebox
      ∧ (∀ d ∈ (house.net 0).members, ∀ m, house.member d = some m → m.station ≠ 2)
      ∧ (house.net 0).members.length < 48 ∧ house.member 3 = none
      ∧ ∀ d, d < (3 : EntryNo) → (house.member d).isSome = true := by
  have members (d) (_ : d ∈ (house.net 0).members) (m) (h : house.member d = some m) : m.station ≠ 2 :=
    of_decide_eq_true (all_some (p := fun m => decide (m.station ≠ 2)) (by decide +kernel) d m h)
  refine ⟨ready_of house_free .., ?_, ?_, ?_, ?_, ?_, ?_, members, ?_⟩ <;> decide +kernel

/-- The house under an engaged show lock, with a listen level of entry 0 staged. -/
def lockedHouse : State :=
  let s := house.setShowLock true
  { s with port := { s.port with staging := some ⟨0, #v[some 3, none, none, none, none, none, none, none], 100⟩ } }

theorem witness_MemberChangeSetsRights :
    (ready lockedHouse .memberChange 2 0x02000000 ∧ (2 : BitVec 16).toNat = (2 : EntryNo).val
      ∧ lockedHouse.member 2 = some ⟨1, 1, .both, some (-6)⟩ ∧ argByte 0x02000000 0 = Rights.listen.code
      ∧ lockedHouse.port.showLock = true ∧ (lockedHouse.net 1).locked = true)
    ∧ (ready lockedHouse .memberChange 0 0x02000000 ∧ (0 : BitVec 16).toNat = (0 : EntryNo).val
      ∧ lockedHouse.member 0 = some ⟨0, 0, .both, some 0⟩
      ∧ ¬ (lockedHouse.port.showLock = true ∧ (lockedHouse.net 0).locked = true)
      ∧ (Rights.both ≠ .listen ∧ Rights.listen = .listen))
    ∧ (argByte 0x03000000 0 = Rights.both.code ∧ ¬ (Rights.both ≠ .listen ∧ Rights.both = .listen)) := by
  refine ⟨⟨ready_of (by decide +kernel) .., ?_⟩, ⟨ready_of (by decide +kernel) .., ?_⟩, ?_⟩ <;> decide +kernel

theorem witness_MembersRemoved :
    (ready lockedHouse .memberRemove 2 0 ∧ lockedHouse.member 2 = some ⟨1, 1, .both, some (-6)⟩
      ∧ lockedHouse.port.showLock = true ∧ (lockedHouse.net 1).locked = true)
    ∧ (ready lockedHouse .memberRemove 0 0 ∧ lockedHouse.member 0 = some ⟨0, 0, .both, some 0⟩
      ∧ ¬ (lockedHouse.port.showLock = true ∧ (lockedHouse.net 0).locked = true))
    ∧ (ready lockedHouse .netClose 1 0 ∧ (lockedHouse.net 1).isOpen = true ∧ (lockedHouse.net 1).locked = true
      ∧ (lockedHouse.net 1).members = [2])
    ∧ (ready lockedHouse .netClose 0 0 ∧ (lockedHouse.net 0).isOpen = true
      ∧ ¬ (lockedHouse.port.showLock = true ∧ (lockedHouse.net 0).locked = true)
      ∧ (lockedHouse.net 0).members.Nodup
      ∧ ∀ e ∈ (lockedHouse.net 0).members, ∃ m, lockedHouse.member e = some m ∧ m.net = 0) := by
  refine ⟨⟨ready_of (by decide +kernel) .., by decide +kernel⟩, ⟨ready_of (by decide +kernel) .., by decide +kernel⟩,
    ⟨ready_of (by decide +kernel) .., by decide +kernel⟩, ready_of (by decide +kernel) .., by decide +kernel, by decide +kernel,
    by decide +kernel, fun e he => ?_⟩
  have : (lockedHouse.net 0).members = [0, 1] := by decide +kernel
  simp only [this, List.mem_cons, List.not_mem_nil, or_false] at he
  rcases he with rfl | rfl
  · exact ⟨⟨0, 0, .both, some 0⟩, by decide +kernel⟩
  · exact ⟨⟨0, 1, .listen, some 0⟩, by decide +kernel⟩

theorem witness_LevelWritesStage :
    (ready lockedHouse .levelOne 2 0x80000000 ∧ (2 : BitVec 16).toNat < 768 ∧ (lockedHouse.member 2).isSome = true
      ∧ ∃ w, lockedHouse.port.staging = some w ∧ w.group.val = 2 / 8)
    ∧ (ready lockedHouse .levelOne 684 0x7F000000 ∧ (684 : BitVec 16).toNat < 768
      ∧ (lockedHouse.station 12).configured = true ∧ (684 - 384) % 96 = 12)
    ∧ (ready house .levelFour 384 0x7F800001 ∧ (384 : BitVec 16).toNat % 4 = 0 ∧ house.port.staging = none
      ∧ ∀ k : Fin 4, (house.station ⟨(384 + k.val - 384) % 96, Nat.mod_lt _ (by decide)⟩).configured = true) := by
  refine ⟨⟨ready_of (by decide +kernel) .., by decide, by decide +kernel, ⟨_, rfl, rfl⟩⟩,
    ⟨ready_of (by decide +kernel) .., by decide, by decide +kernel, by decide⟩, ready_of house_free .., by decide,
    by decide +kernel, by decide +kernel⟩

theorem witness_StagedLevelsApply :
    (ready house .levelFlush 0 0 ∧ house.port.staging = none)
    ∧ ∃ w, lockedHouse.port.staging = some w ∧ ready lockedHouse .levelFlush 0 0 ∧ w.expiry ≤ max lockedHouse.now 100
      ∧ max lockedHouse.now 99 < w.expiry :=
  ⟨⟨ready_of house_free .., by decide +kernel⟩, _, rfl, ready_of (by decide +kernel) .., by decide +kernel, by decide +kernel⟩

theorem witness_RemoteTalkAdds :
    (ready house .remoteTalk 0 0x00FFFF00 ∧ (0 : BitVec 16).toNat = (0 : StationNo).val
      ∧ (argByte 0x00FFFF00 0).toNat = (0 : NetNo).val ∧ (house.station 0).configured = true
      ∧ (house.net 0).isOpen = true ∧ house.mayTalk 0 0 = true ∧ house.isUp 0 = true ∧ house.intent 0 0 ≠ none)
    ∧ (ready house .remoteTalk 1 0x01000000 ∧ (argByte 0x01000000 0).toNat = (1 : NetNo).val ∧ house.mayTalk 1 1 = true
      ∧ house.isUp 1 = true ∧ house.intent 1 1 = none ∧ house.talk.intents.length < 256
      ∧ (house.station 1).gateEnable = false)
    ∧ let s := house.modStation 1 fun r => { r with gateEnable := true }
      (ready s .remoteTalk 1 0x01000000 ∧ s.mayTalk 1 1 = true ∧ s.isUp 1 = true ∧ s.intent 1 1 = none
        ∧ ¬ ((s.station 1).gateEnable = false ∨ (s.gate 1).isOpen = true)) := by
  refine ⟨⟨ready_of house_free .., ?_⟩, ⟨ready_of house_free .., ?_⟩, ready_of (by decide +kernel) .., ?_⟩ <;>
    decide +kernel

theorem witness_RemoteOriginEnds :
    (ready house .remoteRelease 0 0 ∧ (0 : BitVec 16).toNat = (0 : StationNo).val ∧ (argByte 0 0).toNat = (0 : NetNo).val
      ∧ ∃ x, house.intent 0 0 = some x ∧ x.remote = some 50 ∧ x.key.isSome = true)
    ∧ (ready house .remoteRelease 1 0x01000000 ∧ house.intent 1 1 = none)
    ∧ 50 ≤ max house.now 50 ∧ max house.now 49 < 50 := by
  refine ⟨⟨ready_of house_free .., by decide, by decide, ?_⟩, ⟨ready_of house_free .., by decide +kernel⟩,
    by decide +kernel, by decide +kernel⟩
  exact ⟨{ station := 0, net := 0, key := some ⟨0, .auto, .held 0⟩, remote := some 50, arrival := some 0 },
    by decide +kernel⟩

/-! ## Calls and keys -/

/-- No call of the house has station 0 for a party. -/
theorem house_no_call_of_0 : ∀ d e, house.call d = some e → e.caller ≠ 0 ∧ e.callee ≠ 0 := fun d e h =>
  of_decide_eq_true (all_some (p := fun e : Call => decide (e.caller ≠ 0 ∧ e.callee ≠ 0)) (by decide +kernel) d e h)

/-- The house with station 12 UP. -/
def houseWith12 : State := house.modLink 12 fun _ => { state := .up }

theorem witness_CallTableCommands :
    (ready houseWith12 .callPlace 0 0x0C000000 ∧ (0 : BitVec 16).toNat = (0 : StationNo).val
      ∧ (argByte 0x0C000000 0).toNat = (12 : StationNo).val ∧ (12 : StationNo) ≠ 0
      ∧ (∀ j : StationNo, j = 0 ∨ j = 12 → (houseWith12.station j).configured = true
        ∧ (houseWith12.station j).kind ≠ .cuebox ∧ houseWith12.isUp j = true
        ∧ ∀ d e, houseWith12.call d = some e → e.caller ≠ j ∧ e.callee ≠ j)
      ∧ houseWith12.call 1 = none ∧ ∀ d, d < (1 : CallNo) → (houseWith12.call d).isSome = true)
    ∧ (ready house .callEnd 0 0x01020000 ∧ (0 : BitVec 16).toNat = (0 : CallNo).val
      ∧ house.call 0 = some ⟨1, 2, .key, .ringing 5⟩
      ∧ (argByte 0x01020000 0).toNat = (1 : StationNo).val ∧ (argByte 0x01020000 1).toNat = (2 : StationNo).val
      ∧ ¬ ((argByte 0x01030000 0).toNat = (1 : StationNo).val ∧ (argByte 0x01030000 1).toNat = (2 : StationNo).val)
      ∧ 5 ≤ max house.now 5)
    ∧ (ready house .callRead 23 0 ∧ (23 : BitVec 16).toNat = (23 : CallNo).val) := by
  refine ⟨⟨ready_of (by decide +kernel) .., by decide, by decide, by decide, ?_, by decide +kernel⟩,
    ⟨ready_of house_free .., by decide +kernel⟩, ready_of house_free .., by decide⟩
  rintro j (rfl | rfl)
  · exact ⟨by decide +kernel, by decide +kernel, by decide +kernel, fun d e h => of_decide_eq_true
      (all_some (p := fun e : Call => decide (e.caller ≠ 0 ∧ e.callee ≠ 0)) (by decide +kernel) d e h)⟩
  · exact ⟨by decide +kernel, by decide +kernel, by decide +kernel, fun d e h => of_decide_eq_true
      (all_some (p := fun e : Call => decide (e.caller ≠ 12 ∧ e.callee ≠ 12)) (by decide +kernel) d e h)⟩

/-- The house with a call between station 0 and another in place of the one in entry 0. -/
def calling (b : Binding) (e : Call) : State := (bound b).setCall 0 (some e)

/-- Station 0 is party to the call of entry 0 alone. -/
theorem calling_alone (b : Binding) (e : Call) :
    ∀ d f, (calling b e).call d = some f → f.caller = 0 ∨ f.callee = 0 → d = 0 := by
  intro d f h _
  by_contra hd
  have h' : house.call d = some f := by
    have : (calling b e).call d = house.call d := get_modifyAt_ne _ _ _ _ hd
    rw [← this]; exact h
  have : ∀ d : CallNo, d ≠ 0 → (house.call d).isNone = true := by decide +kernel
  exact absurd (this d hd) (by simp [h'])

theorem witness_CallKeyPresses :
    ((bound (.call 12)).key 0 0).binding = .call 12 ∧ (12 : StationNo) ≠ 0
    ∧ (∀ d e, (bound (.call 12)).call d = some e → e.caller ≠ 0 ∧ e.callee ≠ 0)
    ∧ (¬ (bound (.call 12)).isUp 12 = true)
    ∧ (let s := (bound (.call 12)).modLink 12 fun _ => { state := .up }
      (s.key 0 0).binding = .call 12 ∧ (s.station 12).configured = true ∧ (s.station 12).kind ≠ .cuebox ∧ s.isUp 12 = true
        ∧ (∀ d e, s.call d = some e → e.caller ≠ 12 ∧ e.callee ≠ 12) ∧ s.call 1 = none
        ∧ ∀ d, d < (1 : CallNo) → (s.call d).isSome = true)
    ∧ (calling (.call 1) ⟨0, 1, .key, .ringing 5⟩).call 0 = some ⟨0, 1, .key, .ringing 5⟩
    ∧ (calling (.call 1) ⟨0, 1, .key, .connected 5⟩).call 0 = some ⟨0, 1, .key, .connected 5⟩
    ∧ (calling (.call 1) ⟨1, 0, .key, .ringing 5⟩).call 0 = some ⟨1, 0, .key, .ringing 5⟩
    ∧ (calling (.call 2) ⟨0, 1, .key, .ringing 5⟩).call 0 = some ⟨0, 1, .key, .ringing 5⟩
    ∧ ((bound .answer).key 0 0).binding = .answer
    ∧ ((calling .answer ⟨1, 0, .key, .ringing 5⟩).key 0 0).binding = .answer
    ∧ (calling .answer ⟨1, 0, .key, .ringing 5⟩).call 0 = some ⟨1, 0, .key, .ringing 5⟩
    ∧ (calling .answer ⟨0, 1, .key, .ringing 5⟩).call 0 = some ⟨0, 1, .key, .ringing 5⟩
    ∧ (∀ d f, (calling .answer ⟨0, 1, .key, .ringing 5⟩).call d = some f → f.caller = 0 ∨ f.callee = 0 → d = 0) := by
  have alone0 (d e) (h : (bound (.call 12)).call d = some e) : e.caller ≠ 0 ∧ e.callee ≠ 0 := house_no_call_of_0 d e h
  have alone12 (d e) (h : (bound (.call 12)).call d = some e) : e.caller ≠ 12 ∧ e.callee ≠ 12 :=
    of_decide_eq_true (all_some (p := fun e : Call => decide (e.caller ≠ 12 ∧ e.callee ≠ 12)) (by decide +kernel) d e h)
  refine ⟨?_, ?_, alone0, ?_, ⟨?_, ?_, ?_, ?_, alone12, ?_⟩, ?_, ?_, ?_, ?_, ?_, ?_, ?_, ?_, calling_alone _ _⟩ <;>
    decide +kernel

/-- The house with key 0 of station 0 bound TALK to net 0, and the KEY origin of its intent in a mode and phase. -/
def talking (mode : TalkMode) (phase : KeyPhase) (remote : Option Time) : State :=
  let s := bound (.talk 0 mode)
  { s with talk := { s.talk with
    intents := [{ station := 0, net := 0, key := some ⟨0, mode, phase⟩, remote, arrival := some 0 }] } }

theorem witness_TalkKeyPresses :
    (((bound (.talk 1 .momentary)).key 0 0).binding = .talk 1 .momentary
      ∧ (bound (.talk 1 .momentary)).intent 0 1 = none ∧ (bound (.talk 1 .momentary)).mayTalk 0 1 = false)
    ∧ (let s := (bound (.talk 0 .latching)).freeIntent 0 0
      (s.key 0 0).binding = .talk 0 .latching ∧ s.intent 0 0 = none ∧ (s.net 0).isOpen = true ∧ s.mayTalk 0 0 = true
        ∧ s.talk.intents.length < 256 ∧ s.isUp 0 = true ∧ (s.station 0).gateEnable = false)
    ∧ (let s := ((bound (.talk 0 .auto)).freeIntent 0 0).modStation 0 fun r => { r with gateEnable := true }
      (s.key 0 0).binding = .talk 0 .auto ∧ s.intent 0 0 = none ∧ s.mayTalk 0 0 = true
        ∧ ¬ ((s.station 0).gateEnable = false ∨ (s.gate 0).isOpen = true))
    ∧ (((talking .latching .latched none).key 0 0).binding = .talk 0 .latching
      ∧ ((talking .latching .latched none).intent 0 0).map Intent.key = some (some ⟨0, .latching, .latched⟩))
    ∧ (((talking .auto .latched (some 9)).key 0 0).binding = .talk 0 .auto
      ∧ ((talking .auto .latched (some 9)).intent 0 0).map Intent.key = some (some ⟨0, .auto, .latched⟩))
    ∧ (((talking .auto (.held 0) none).key 0 0).binding = .talk 0 .auto
      ∧ ((talking .auto (.held 0) none).intent 0 0).map Intent.key = some (some ⟨0, .auto, .held 0⟩))
    ∧ ((talking .momentary (.held 0) none).intent 0 0).map Intent.key = some (some ⟨0, .momentary, .held 0⟩) := by
  decide +kernel

theorem witness_KeyReleases :
    (((bound .answer).setStale 0 0 true).key 0 0).stale = true
    ∧ (((bound .answer).key 0 0).stale = false ∧ ((bound .answer).key 0 0).binding = .answer)
    ∧ (((talking .latching .latched none).key 0 0).stale = false
      ∧ ((talking .latching .latched none).key 0 0).binding = .talk 0 .latching)
    ∧ (((talking .auto .latched none).setIgnoreRelease 0 0 true).ignoresRelease 0 0 = true
      ∧ ((talking .auto .latched none).key 0 0).binding = .talk 0 .auto)
    ∧ ((talking .auto (.held 0) none).ignoresRelease 0 0 = false
      ∧ ((talking .auto (.held 0) none).intent 0 0).map Intent.key = some (some ⟨0, .auto, .held 0⟩)
      ∧ 6143999 - 0 < 6144000 ∧ 6144000 ≤ 6144000 - 0)
    ∧ (((talking .momentary (.held 0) none).key 0 0).binding = .talk 0 .momentary
      ∧ ((talking .momentary (.held 0) none).intent 0 0).map Intent.key = some (some ⟨0, .momentary, .held 0⟩)
      ∧ ((talking .momentary (.held 0) (some 9)).intent 0 0).map Intent.remote = some (some 9)) := by
  decide +kernel

/-- The house with an all-call owned by a key. -/
def allCalling (k : KeyNo) : State :=
  let s := bound .allCall
  { s with talk := { s.talk with allCall := some ⟨0, k, 0⟩ } }

theorem witness_AllCallKeys :
    (((bound .allCall).key 0 0).binding = .allCall ∧ (bound .allCall).talk.allCall = none
      ∧ ((bound .allCall).key 0 0).stale = false)
    ∧ (((allCalling 0).key 0 0).binding = .allCall ∧ (allCalling 0).talk.allCall = some ⟨0, 0, 0⟩
      ∧ ((allCalling 0).key 0 0).stale = false)
    ∧ (((allCalling 1).key 0 0).binding = .allCall ∧ (allCalling 1).talk.allCall = some ⟨0, 1, 0⟩
      ∧ ((allCalling 1).key 0 0).stale = false) := by
  decide +kernel

/-! ## Cues -/

/-- The house with a cue of two targets in the transfer area: department 15, 9999.9, policy ANY and locked. -/
def defining : State := house.loadArea [15, 0x27, 0x0F, 9, 9, 2, 0x58, 10, 2, 3, 0]

theorem witness_CueDefineStages :
    let byte (n : Nat) : Nat := if h : n < 48 then (defining.port.area.get ⟨n, h⟩).toNat else 0
    ready defining .cueDefine 63 0
      ∧ (∀ d q, defining.cue d = some q → ¬ (q.department = byte 0 ∧ q.number = byte 1 * 256 + byte 2 ∧ q.point = byte 3))
      ∧ (63 : BitVec 16).toNat = (63 : CueNo).val ∧ defining.cue 63 = none
      ∧ byte 0 ≤ 15 ∧ byte 1 * 256 + byte 2 ≤ 9999 ∧ byte 3 ≤ 9 ∧ byte 4 ≤ 15
      ∧ ([3, 0] : List StationNo).length = byte 8 ∧ 1 ≤ byte 8 ∧ byte 8 ≤ 12
      ∧ byte 9 = (3 : StationNo).val ∧ byte 10 = (0 : StationNo).val ∧ ([3, 0] : List StationNo).Nodup
      ∧ ∀ i ∈ ([3, 0] : List StationNo), (defining.station i).configured = true := by
  have labels (d q) (h : defining.cue d = some q) : ¬ q.department = 15 := by
    have := of_decide_eq_true (all_some (p := fun q : Cue => decide (q.department = 1)) (by decide +kernel) d q h)
    omega
  exact ⟨ready_of (by decide +kernel) .., fun d q h hq => labels d q h hq.1, by decide +kernel⟩

theorem witness_CueStandbyJoinsQueues :
    ready house .cueStandby 63 0 ∧ (63 : BitVec 16).toNat = (63 : CueNo).val ∧ house.cue 63 = none
    ∧ ((house.cue 0).map Cue.state, (house.cue 2).map Cue.state, (house.cue 3).map Cue.state)
        = (some .standby, some .go, some .ready)
    ∧ ((house.cue 1).map Cue.state = some .staged ∧ (house.lamp 0).queue.length < 4
      ∧ (house.cue 1).map (fun q => q.targets.map Target.station) = some [0] ∧ ([0] : List StationNo).Nodup)
    ∧ (4 ≤ ((house.modLamp 0 fun l => { l with
        queue := [⟨10, .pending, false, false⟩, ⟨11, .pending, false, false⟩, ⟨12, .lost, false, false⟩,
          ⟨13, .acked, true, false⟩] }).lamp 0).queue.length) :=
  ⟨ready_of house_free .., by decide +kernel⟩

theorem witness_CueGoGives :
    ready house .cueGo 63 0 ∧ (63 : BitVec 16).toNat = (63 : CueNo).val ∧ house.cue 63 = none
    ∧ ((house.cue 0).map Cue.state, (house.cue 2).map Cue.state, (house.cue 3).map Cue.state)
        = (some .standby, some .go, some .ready)
    ∧ ((house.cue 1).map Cue.state, (house.cue 1).map Cue.direct) = (some .staged, some false)
    ∧ ((house.cue 4).map Cue.state, (house.cue 4).map Cue.direct) = (some .staged, some true) :=
  ⟨ready_of house_free .., by decide +kernel⟩

theorem witness_CueCancelRetireSummary :
    ready house .cueCancel 0 0 ∧ ready lockedHouse .cueRetire 1 0 ∧ ready house .cueRetire 1 0
    ∧ ready house .cueSummary 3 0 ∧ (3 : BitVec 16).toNat = (3 : CueNo).val
    ∧ ((house.cue 0).map Cue.state, (house.cue 1).map Cue.state, (house.cue 2).map Cue.state, (house.cue 3).map Cue.state)
        = (some .standby, some .staged, some .go, some .ready)
    ∧ (lockedHouse.port.showLock = true ∧ (lockedHouse.cue 1).map Cue.locked = some true)
    ∧ house.port.showLock = false :=
  ⟨ready_of house_free .., ready_of (by decide +kernel) .., ready_of house_free .., ready_of house_free .., by decide +kernel⟩

theorem witness_TimersEnd :
    (house.cue 0).map Cue.ackTimer = some (some 5) ∧ (house.cue 2).map Cue.goTimer = some (some 5)
    ∧ (house.lamp 0).goLamp = some 5
    ∧ ((house.modKey 0 0 fun k => { k with deny := some 5 }).key 0 0).deny = some 5
    ∧ max house.now 4 < 5 ∧ 5 ≤ max house.now 5 := by
  decide +kernel

/-- What a request command answers. -/
def answerOf (c : Instr) (s : State) : Reply :=
  match exec c s with
  | .next u => u.port.reply
  | .fault _ => .none
  | .refused _ => .none

theorem witness_CueKeysActAsRequests :
    (0 : BitVec 16).toNat = (0 : CueNo).val
    ∧ (((bound (.go 0)).key 0 0).binding = .go 0 ∧ ready (bound (.go 0)) .cueGo 0 0
      ∧ answerOf (.cueGo (bound (.go 0)).now 0 0) (bound (.go 0)) = .completed .done RequestKind.cueGo.code 0 0x010000)
    ∧ (((bound (.standby 1)).key 0 0).binding = .standby 1
      ∧ (∀ q, (bound (.standby 1)).cue 1 = some q → q.state ≠ .standby ∧ q.state ≠ .ready)
      ∧ ready (bound (.standby 1)) .cueStandby 1 0
      ∧ answerOf (.cueStandby (bound (.standby 1)).now 1 0) (bound (.standby 1))
          = .completed .done RequestKind.cueStandby.code 1 0)
    ∧ (((bound (.standby 0)).key 0 0).binding = .standby 0
      ∧ (∀ q, (bound (.standby 0)).cue 0 = some q → q.state = .standby ∨ q.state = .ready)
      ∧ (bound (.standby 0)).cue 0 ≠ none ∧ ready (bound (.standby 0)) .cueCancel 0 0
      ∧ answerOf (.cueCancel (bound (.standby 0)).now 0 0) (bound (.standby 0))
          = .completed .done RequestKind.cueCancel.code 0 0) := by
  refine ⟨by decide, ⟨by decide +kernel, ready_of (by decide +kernel) .., by decide +kernel⟩,
    ⟨by decide +kernel, fun q h => ?_, ready_of (by decide +kernel) .., by decide +kernel⟩,
    by decide +kernel, fun q h => ?_, by decide +kernel, ready_of (by decide +kernel) .., by decide +kernel⟩
  · have : ((bound (.standby 1)).cue 1).all (fun q => decide (q.state ≠ .standby ∧ q.state ≠ .ready)) = true := by
      decide +kernel
    rw [h] at this
    exact of_decide_eq_true this
  · have : ((bound (.standby 0)).cue 0).all (fun q => decide (q.state = .standby ∨ q.state = .ready)) = true := by
      decide +kernel
    rw [h] at this
    exact of_decide_eq_true this

theorem witness_AckPressLands :
    ((bound .ack).key 0 0).binding = .ack
    ∧ ((bound .ack).lamp 0).queue = [] ++ ⟨0, .pending, true, true⟩ :: []
    ∧ ((QueueEntry.status ⟨0, .pending, true, true⟩ = .pending) ∧ (QueueEntry.shown ⟨0, .pending, true, true⟩ = true))
    ∧ ((bound .ack).cue 0).map Cue.state = some .standby
    ∧ ∀ e ∈ (((bound .ack).modLamp 0 fun l => { l with queue := [⟨0, .pending, false, true⟩] }).lamp 0).queue,
        ¬ (e.status = .pending ∧ e.shown = true) := by
  decide +kernel

/-! ## The station buses -/

theorem witness_TalliesShowState :
    ((house.modKey 0 0 fun k => { k with deny := some 5 }).key 0 0).deny.isSome = true
    ∧ ((bound .none).key 0 0).deny = none ∧ ((bound .none).key 0 0).binding = .none
    ∧ (((bound (.talk 0 .auto)).key 0 0).binding = .talk 0 .auto ∧ ((bound (.talk 0 .auto)).net 0).isOpen = true
      ∧ ((bound (.talk 0 .auto)).intent 0 0).isSome = true)
    ∧ (((bound (.talk 2 .auto)).key 0 0).binding = .talk 2 .auto ∧ ((bound (.talk 2 .auto)).net 2).isOpen = false)
    ∧ ((calling (.call 1) ⟨0, 1, .key, .ringing 5⟩).callOf 0 = some (0, ⟨0, 1, .key, .ringing 5⟩)
      ∧ Call.other ⟨0, 1, .key, .ringing 5⟩ 0 = 1 ∧ Call.other ⟨0, 1, .key, .ringing 5⟩ 0 ≠ 2)
    ∧ (bound .answer).callOf 0 = none ∧ ((bound .answer).key 0 0).binding = .answer
    ∧ ((bound .allCall).key 0 0).binding = .allCall
    ∧ (((bound (.standby 0)).key 0 0).binding = .standby 0 ∧ (bound (.standby 5)).cue 5 = none)
    ∧ ((bound (.go 2)).key 0 0).binding = .go 2 ∧ ((bound .ack).key 0 0).binding = .ack := by
  decide +kernel

/-- The house with the slot of bus 0 at a phase with characters received. -/
def slotAt (phase : SlotPhase) (chars : List ReplyChar) : State :=
  house.modBus 0 fun r =>
    { r with slot := some { address := 0, poll := Vector.replicate 5 0, flash := true, phase, chars } }

theorem witness_SlotPhases :
    (((slotAt .poll []).busRec 0).slot.map BusSlot.phase, ((slotAt .poll []).busRec 0).slot.map BusSlot.flash)
        = (some .poll, some true)
    ∧ ((slotAt .window []).busRec 0).slot.map BusSlot.phase = some .window
    ∧ ((slotAt .reply (List.replicate 3 ⟨0, false, false⟩)).busRec 0).slot.map
        (fun x => (x.phase, x.chars.length + 1)) = some (.reply, 4)
    ∧ ((slotAt .guard []).busRec 0).slot.map (fun x => (x.phase, x.chars)) = some (.guard, [])
    ∧ ((house.busRec 1).slot = none ∧ (house.busRec 1).finishing = false)
    ∧ ((house.modBus 1 fun r => { r with finishing := true, driverEnable := true }).busRec 1).finishing = true := by
  decide +kernel

/-- A good reply of station 0: 40h, key 0 down, PANEL, and the check. -/
def goodChars : List ReplyChar :=
  [⟨0x40, false, false⟩, ⟨0x01, false, false⟩, ⟨0x01, false, false⟩, ⟨0xBE, false, false⟩]

theorem witness_GoodRepliesMeetR26 :
    (({ address := 0, poll := Vector.replicate 5 0, flash := true, phase := .guard } : BusSlot).discarded = false
      ∧ ({ address := 0, poll := Vector.replicate 5 0, flash := true, phase := .guard } : BusSlot).goodKeys .panel = none)
    ∧ ({ address := 0, poll := Vector.replicate 5 0, flash := true, phase := .guard, chars := goodChars } : BusSlot).goodKeys
        .panel = some 0x01 := by
  decide +kernel

/-- The house with bus `b` RUNNING in the guard of its slot for address `a`, with characters received. -/
def guardOf (b : BusNo) (a : BusAddress) (chars : List ReplyChar) : State :=
  house.modBus b fun r => { r with
    running := true, slot := some { address := a, poll := Vector.replicate 5 0, flash := false, phase := .guard, chars } }

/-- The house in the guard of a slot for station 1, which has missed two and is calling station 2. -/
def losing : State := (guardOf 0 1 []).modLink 1 fun l => { l with misses := 2 }

/-- After the slot at address 0 comes address 1, after the one at address 3 address 0 again, and on bus 7 none. -/
theorem witness_MissedSlotsCount :
    ((slotAt .guard []).busRec 0).slot.map
        (fun x => (x.phase, x.discarded, x.goodKeys ((slotAt .guard []).station (stationAt 0 x.address)).kind))
        = some (.guard, false, none)
    ∧ (((slotAt .guard []).link 0).state = .up ∧ ((slotAt .guard []).link 0).misses < 2)
    ∧ (((slotAt .guard []).modLink 0 fun l => { l with misses := 2 }).link 0).misses = 2
    ∧ (((slotAt .guard []).modLink 0 fun l => { l with state := .down }).link 0).state ≠ .up
    ∧ (((slotAt .guard []).discardSlot 0).busRec 0).slot.map (fun x => (x.phase, x.discarded)) = some (.guard, true)
    ∧ ((guardOf 0 3 []).busRec 0).slot.map (fun x => (x.phase, x.address)) = some (.guard, 3)
    ∧ ((guardOf 7 0 []).busRec 7).slot.map (fun x => (x.phase, x.address)) = some (.guard, 0)
    ∧ (∀ c : BusAddress, ((guardOf 0 3 []).station (stationAt 0 c)).configured = true ↔ c ≤ 3)
    ∧ ∀ c : BusAddress, ((guardOf 7 0 []).station (stationAt 7 c)).configured = false := by
  decide +kernel

theorem witness_MissedSlotsCount_loss :
    Calls losing ∧ (losing.call 0).map Call.caller = some 1
    ∧ (losing.busRec 0).slot.map
        (fun x => (x.phase, x.address, x.discarded, x.goodKeys (losing.station (stationAt 0 x.address)).kind))
        = some (.guard, 1, false, none)
    ∧ ((losing.link 1).state = .up ∧ (losing.link 1).misses = 2) := by
  refine ⟨calls_of ?_ ?_ ?_, ?_⟩ <;> decide +kernel

theorem witness_GoodSlotsBringUp :
    ((slotAt .guard goodChars).busRec 0).slot.map
        (fun x => (x.phase, x.discarded, x.goodKeys ((slotAt .guard goodChars).station (stationAt 0 x.address)).kind))
        = some (.guard, false, some 0x01)
    ∧ ((slotAt .guard goodChars).link 0).state = .up
    ∧ (((slotAt .guard goodChars).modLink 0 fun l => { l with state := .probing }).link 0).state = .probing
    ∧ (((slotAt .guard goodChars).modLink 0 fun l => { l with state := .down }).link 0).state = .down
    ∧ ((guardOf 1 0 goodChars).busRec 1).slot.map
        (fun x => (x.phase, x.discarded, x.goodKeys ((guardOf 1 0 goodChars).station (stationAt 1 x.address)).kind))
        = some (.guard, false, some 0x01)
    ∧ (∀ c : BusAddress, ((guardOf 1 0 goodChars).station (stationAt 1 c)).configured = true ↔ c = 0)
    ∧ ((guardOf 7 0 goodChars).busRec 7).slot.map
        (fun x => (x.phase, x.discarded, x.goodKeys ((guardOf 7 0 goodChars).station (stationAt 7 x.address)).kind))
        = some (.guard, false, some 0x01)
    ∧ ∀ c : BusAddress, ((guardOf 7 0 goodChars).station (stationAt 7 c)).configured = false := by
  decide +kernel

/-! ## Audio -/

theorem witness_GainConversions : (168 ≤ 168) ∧ (24 : Int) < 25 ∧ (-145 : Int) < -144 ∧ (6 ≤ 128 ∧ 128 ≤ 128)
    ∧ ((-128 : Int) ≤ -128 ∧ (-128 : Int) < -6) := by decide

/-- The house in the last frame of a block. -/
def lastFrame : State := { house with mix := { house.mix with frames := 239 } }

theorem witness_AudioFrameMixes :
    (house.phase = .running ∧ house.mix.clockPresent = true ∧ house.mix.frames < 239)
    ∧ (lastFrame.phase = .running ∧ lastFrame.mix.clockPresent = true ∧ lastFrame.mix.frames = 239) := by
  decide +kernel

theorem witness_AudioClockLossAndReturn :
    (house.phase = .running ∧ house.mix.clockPresent = true ∧ house.mix.lastEdge + 12288 ≤ max house.now 12288)
    ∧ (let s : State := { house with mix := { house.mix with clockPresent := false } }
      s.phase = .running ∧ s.mix.clockPresent = false) := by
  decide +kernel

/-- A block has ended in which station 0 spoke below its close threshold while its enabled gate was on its last count. -/
def blockDone : State :=
  let s := ((house.modStation 0 fun r => { r with gateEnable := true }).modGate 0 fun _ => ⟨true, 1⟩).modChannel 0
    fun x => { x with ended := some 524287, overload := true }
  { s with mix := { s.mix with blockEnded := true } }

theorem witness_BlockEndMovesGates :
    blockDone.mix.blockEnded = true
    ∧ (blockDone.channel 0).ended = some 524287 ∧ (blockDone.station 0).gateEnable = true
    ∧ (blockDone.gate 0).isOpen = true ∧ 524287 < thresholdOf (blockDone.station 0).gateClose
    ∧ (blockDone.gate 0).hold = 1 := by
  decide +kernel

/-- A block has ended in which station 0 spoke at full scale behind its closed gate, which held its intent back. -/
def gateOpens : State :=
  let s := ((house.modStation 0 fun r => { r with gateEnable := true }).modTalkers 0 fun _ => []).modChannel 0
    fun x => { x with ended := some 8388607 }
  { s with
    mix := { s.mix with blockEnded := true }
    talk := { s.talk with intents := [{ station := 0, net := 0, remote := some 50 }] } }

theorem witness_BlockEndMovesGates_opening :
    gateOpens.mix.blockEnded = true ∧ (gateOpens.channel 0).ended = some 8388607
    ∧ (gateOpens.gate 0).isOpen = false ∧ (gateOpens.station 0).gateEnable = true
    ∧ thresholdOf (gateOpens.station 0).gateOpen ≤ 8388607
    ∧ (gateOpens.intent 0 0).map Intent.arrival = some none
    ∧ gateOpens.isUp 0 = true ∧ gateOpens.mayTalk 0 0 = true ∧ (gateOpens.net 0).isOpen = true := by
  decide +kernel

/-- The plan of station 0 with slot 7 drained, with and without a next, and reported. -/
def drained (next : Option StationNo) : State :=
  house.modPlan 0 fun p => p.modSlot 7 fun _ => { use := .draining 1 next, reported := true }

theorem witness_DrainCompletionHandsOn :
    ((drained (some 2)).planInUse 0 = true ∧ (((drained (some 2)).plan 0).slots.get 7).reported = true
      ∧ (((drained (some 2)).plan 0).slots.get 7).use = .draining 1 (some 2))
    ∧ (((drained none).plan 0).slots.get 7).use = .draining 1 none
    ∧ house.planInUse 3 = false ∧ ((house.plan 0).slots.get 0).use = .free
    ∧ ((house.modPlan 0 fun p => p.activate 0 1).plan 0 |>.slots.get 0).use = .active 1 := by
  decide +kernel

/-- What the clauses about a change taken by a plan ask of it. -/
structure Takes (s : State) (i : StationNo) (p : Plan) : Prop where
  shape : PlanShape i p
  waiting : p.waiting.Pairwise (fun a b => p.ranksBefore s a b = true)
  paths : ∀ c ∈ p.candidates, c.paths ≠ []
  targets : ∀ k t, (p.slots.get k).use = .active t → (p.slots.get k).target = coefficientOf (p.levelOf t)

/-- The same, checked by evaluation. -/
def takes (s : State) (i : StationNo) (p : Plan) : Bool := decide (
  (p.holders ++ p.waiting).Nodup ∧ (p.candidates.map Candidate.station).Nodup
  ∧ (∀ t, t ∈ p.holders ++ p.waiting ↔ t ∈ p.candidates.map Candidate.station)
  ∧ i ∉ p.candidates.map Candidate.station
  ∧ (∀ k, (p.slots.get k).use = .free → p.waiting = [])
  ∧ (∀ k o, (p.slots.get k).use = .draining o none → p.waiting = [])
  ∧ p.waiting.Pairwise (fun a b => p.ranksBefore s a b = true)
  ∧ (∀ c ∈ p.candidates, c.paths ≠ [])
  ∧ ∀ k t, (p.slots.get k).use = .active t → (p.slots.get k).target = coefficientOf (p.levelOf t))

theorem takes_of {s : State} {i : StationNo} {p : Plan} (h : takes s i p = true) : Takes s i p :=
  have ⟨places, records, same, others, free, bound, waiting, paths, targets⟩ := of_decide_eq_true h
  { shape := { places, records, same, others, free, bound }, waiting, paths, targets }

/-- Station 0 listens at level 0 in net 0, where the stations `ts` talk; station 10 is a STAGE_MANAGER, the others are
CREW. -/
def crowded (ts : List StationNo) : State :=
  let s := (idle.modStation 0 fun _ => { panel with duck := 0 }).modStation 10 fun _ => panel
  let s := (s.modLink 0 fun _ => { state := .up }).modNet 0 fun x => { x with isOpen := true, members := [0] }
  (s.modMember 0 fun _ => some ⟨0, 0, .listen, some 0⟩).modTalkers 0 fun _ => ts

/-- The stations from 1 to `n`. -/
def upTo (n : Nat) : List StationNo := (allOf 96).filter fun t => 1 ≤ t.val ∧ t.val ≤ n

/-- A plan of station 0: stations 1 to 7 hold slots 0 to 6, slot 7 is as given, and the stations `ts` are its candidates,
each through net 0 at level 0. -/
def seats (last : SlotUse) (waiting ts : List StationNo) : Plan :=
  { slots := Vector.ofFn fun k =>
      let use : SlotUse := if k.val = 7 then last else .active ⟨k.val + 1, by omega⟩
      { use, target := match use with | .active _ => 8192 | _ => 0 }
    waiting
    candidates := ts.map fun t => ⟨t, [⟨.net 0, 0, 0⟩]⟩ }

/-- The candidate record of a station that is heard through net 0 at level 0. -/
def heardAs (t : StationNo) : Candidate := ⟨t, [⟨.net 0, 0, 0⟩]⟩

/-- Station 9 leaves the waiting list; station 1 leaves its slot with station 9 waiting and with nobody; station 8 ceases
to be the next of slot 7, which station 20 or station 9 itself occupies. -/
theorem witness_DrainCompletionHandsOn_departures :
    let full := seats (.active 8) [9] (upTo 9)
    let alone := seats (.active 8) [] (upTo 8)
    let others := (upTo 9).filter (· ≠ 8)
    (Takes (crowded (upTo 8)) 0 full ∧ 9 ∈ full.waiting
      ∧ (crowded (upTo 8)).candidatesOf 0 = full.candidates.filter (fun d => d.station ≠ 9))
    ∧ (Takes (crowded ((upTo 9).tail)) 0 full ∧ (full.slots.get 0).use = .active 1
      ∧ (crowded ((upTo 9).tail)).candidatesOf 0 = full.candidates.filter (fun d => d.station ≠ 1))
    ∧ (Takes (crowded ((upTo 8).tail)) 0 alone ∧ (alone.slots.get 0).use = .active 1
      ∧ (crowded ((upTo 8).tail)).candidatesOf 0 = alone.candidates.filter (fun d => d.station ≠ 1))
    ∧ ∀ o ∈ ([20, 9] : List StationNo), takes (crowded others) 0 (seats (.draining o (some 8)) [9] (upTo 9)) = true
      ∧ (crowded others).candidatesOf 0
          = (seats (.draining o (some 8)) [9] (upTo 9)).candidates.filter (fun d => d.station ≠ 8) := by
  refine ⟨⟨takes_of ?_, ?_⟩, ⟨takes_of ?_, ?_⟩, ⟨takes_of ?_, ?_⟩, ?_⟩ <;> decide +kernel

/-- Station 9 arrives: to a slot it still occupies, to a FREE slot, to a DRAINING slot without a next, and to a full plan
in which it outranks nobody; station 10 arrives and outranks the lowest holder, station 8, in an ACTIVE slot and as a
next. -/
theorem witness_DrainCompletionHandsOn_arrivals :
    (∀ last ∈ [SlotUse.draining 9 none, .free, .draining 20 none], takes (crowded (upTo 7 ++ [9])) 0 (seats last [] (upTo 7)) = true
      ∧ ((crowded (upTo 7 ++ [9])).candidatesOf 0).Perm (heardAs 9 :: (seats last [] (upTo 7)).candidates))
    ∧ (Takes (crowded (upTo 9)) 0 (seats (.active 8) [] (upTo 8))
      ∧ ((crowded (upTo 9)).candidatesOf 0).Perm (heardAs 9 :: (seats (.active 8) [] (upTo 8)).candidates))
    ∧ (∀ last ∈ [SlotUse.active 8, .draining 20 (some 8)],
        takes (crowded (upTo 8 ++ [10])) 0 (seats last [] (upTo 8)) = true
        ∧ ((crowded (upTo 8 ++ [10])).candidatesOf 0).Perm (heardAs 10 :: (seats last [] (upTo 8)).candidates)
        ∧ (∀ g ∈ (seats last [] (upTo 8)).holders, g ≠ 8 →
            (seats last [] (upTo 8)).ranksBefore (crowded (upTo 8 ++ [10])) g 8 = true)
        ∧ (crowded (upTo 8 ++ [10])).outranks (heardAs 10) (heardAs 8) = true)
    ∧ (crowded (upTo 9)).outranks (heardAs 9) (heardAs 8) = false := by
  refine ⟨?_, ⟨takes_of ?_, ?_⟩, ?_⟩ <;> decide +kernel

/-- The trim of station 1 changes under a full plan; and station 9, which waits, comes to own an all-call. -/
theorem witness_DrainCompletionHandsOn_levels :
    let full := seats (.active 8) [9] (upTo 9)
    let s := crowded (upTo 9)
    let louder := s.modStation 1 fun r => { r with trim := 6 }
    let owned : State := { s with talk := { s.talk with allCall := some ⟨9, 0, 0⟩ } }
    (Takes louder 0 full ∧ ((louder.candidatesOf 0).map Candidate.station).Perm (full.candidates.map Candidate.station)
      ∧ (∀ c ∈ louder.candidatesOf 0, c.hasPath (.net 0) = true ∧ c.allCall = false))
    ∧ (Takes owned 0 full ∧ ((owned.candidatesOf 0).map Candidate.station).Perm (full.candidates.map Candidate.station)
      ∧ (∀ c ∈ owned.candidatesOf 0, c.hasPath (.net 0) = true ∧ (c.allCall = true ↔ c.station = 9)
        ∧ (c.station ≠ 9 → c ∈ full.candidates))
      ∧ full.candidate 9 = some (heardAs 9) ∧ (heardAs 9).allCall = false ∧ 9 ∈ full.waiting) := by
  refine ⟨⟨takes_of ?_, ?_⟩, takes_of ?_, ?_⟩ <;> decide +kernel

/-! ## What every step keeps -/

/-- The only member entries in use of the house are 0, 1 and 2. -/
theorem house_member (e : EntryNo) (m : Member) (h : house.member e = some m) :
    (e = 0 ∧ m = ⟨0, 0, .both, some 0⟩) ∨ (e = 1 ∧ m = ⟨0, 1, .listen, some 0⟩) ∨ (e = 2 ∧ m = ⟨1, 1, .both, some (-6)⟩) := by
  have key : ∀ e : EntryNo, house.member e = if e = 0 then some ⟨0, 0, .both, some 0⟩
      else if e = 1 then some ⟨0, 1, .listen, some 0⟩ else if e = 2 then some ⟨1, 1, .both, some (-6)⟩ else none := by
    decide +kernel
  rw [key e] at h
  split at h
  · exact .inl ⟨‹_›, (Option.some.inj h).symm⟩
  · split at h
    · exact .inr (.inl ⟨‹_›, (Option.some.inj h).symm⟩)
    · split at h
      · exact .inr (.inr ⟨‹_›, (Option.some.inj h).symm⟩)
      · cases h

/-- The only cues in use of the house are 0 to 4. -/
theorem house_cue (c : CueNo) (q : Cue) (h : house.cue c = some q) :
    q.department = 1 ∧ q.number = 2 ∧ q.point = c.val ∧ c.val < 5 := by
  have := all_some (f := fun c => (house.cue c).map fun q => (q, c))
    (p := fun x => decide (x.1.department = 1 ∧ x.1.number = 2 ∧ x.1.point = x.2.val ∧ x.2.val < 5)) (by decide +kernel)
    c (q, c) (by simp [h])
  exact of_decide_eq_true this

theorem house_plans : ∀ i, house.plan i = if i = 1 then heardPlan else {} := by decide +kernel

theorem house_ranges : Ranges house where
  counts := fun k p h => by
    have := all_kinds (p := fun k => (house.notices.pendingOf k).isNone) (by decide +kernel) k
    simp [h] at this
  cursor := by decide +kernel
  arrivals := by decide +kernel
  rates := by decide +kernel
  misses := by decide +kernel
  frames := by decide +kernel
  peaks := fun i => by
    have h : ∀ i, house.channel i = {} := by decide +kernel
    rw [h i]; exact ⟨by decide, fun p hp => by cases hp⟩
  outputs := fun i => by
    have h : ∀ i, house.channel i = {} := by decide +kernel
    rw [h i]; exact ⟨⟨by decide, by decide⟩, ⟨by decide, by decide⟩⟩
  gates := by decide +kernel
  stations := fun i => by
    have h : ∀ i, let r := house.station i
        ((r.trim, r.master, r.dim, r.duck), r.gateOpen, r.gateClose, r.gateHold) = ((0, 0, 12, 12), -40, -48, 40) := by
      decide +kernel
    have h := h i
    simp only [Prod.mk.injEq] at h
    obtain ⟨⟨h1, h2, h3, h4⟩, h5, h6, h7⟩ := h
    refine ⟨?_, ?_, ?_, ?_, ?_, ?_, ?_⟩ <;> simp [between, *]
  members := fun e m l h hl => by
    rcases house_member e m h with ⟨-, rfl⟩ | ⟨-, rfl⟩ | ⟨-, rfl⟩ <;> cases hl <;> simp [between]
  staged := fun b w n h => by
    have : house.port.staging = none := by decide +kernel
    simp [this] at h
  cues := fun c q h => by
    have := of_decide_eq_true (all_some (p := fun q : Cue => decide (q.department ≤ 15 ∧ q.number ≤ 9999 ∧ q.point ≤ 9
      ∧ q.ackWindow ≤ 600 ∧ (1 ≤ q.goDisplay ∧ q.goDisplay ≤ 10) ∧ 1 ≤ q.targets.length ∧ q.targets.length ≤ 12))
      (by decide +kernel) c q h)
    exact ⟨this.1, this.2.1, this.2.2.1, this.2.2.2.1, this.2.2.2.2.1, this.2.2.2.2.2⟩
  slots := fun i k => by
    have h : ∀ k, let x := (house.plan i).slots.get k
        x.target ≤ 8192 ∧ x.current ≤ 256 ∧ x.reported = false
          ∧ (x.use = .free ∧ x.target = 0 ∧ x.current = 0 ∨ x.use = .active 0) := by
      rw [house_plans i]; split <;> decide +kernel
    obtain ⟨h1, h2, h3, h4⟩ := h k
    refine ⟨by omega, by omega, fun hu => ?_, fun o next hu => ?_, fun hr => by simp [h3] at hr⟩ <;>
      rcases h4 with ⟨h, h', h''⟩ | h <;> simp_all

theorem house_keyMaps : KeyMaps house := by
  have h : ∀ i k, (house.key i k).binding = .none := by decide +kernel
  exact
    { noSelfCall := fun i k => by simp [h]
      oneTalkPerNet := fun i k l n m m' hk => by simp [h] at hk
      managers := fun i k hk => by simp [h, Binding.needsManager] at hk
      cueboxes := fun i k _ => by simp [h, Binding.cueboxMay] }

theorem house_links : Links house :=
  { unpolled := by decide +kernel, slots := by decide +kernel, idle := by decide +kernel, driver := by decide +kernel
    plans := by decide +kernel }

theorem house_netTables : NetTables house where
  listed := fun n e => by
    have h : ∀ n, (house.net n).members = if n = 0 then [0, 1] else if n = 1 then [2] else [] := by decide +kernel
    rw [h n]
    constructor
    · intro he
      split at he
      · simp at he
        rcases he with rfl | rfl
        · exact ⟨⟨0, 0, .both, some 0⟩, by decide +kernel, by simp [*]⟩
        · exact ⟨⟨0, 1, .listen, some 0⟩, by decide +kernel, by simp [*]⟩
      · split at he
        · simp at he; subst he
          exact ⟨⟨1, 1, .both, some (-6)⟩, by decide +kernel, by simp [*]⟩
        · simp at he
    · rintro ⟨m, hm, rfl⟩
      rcases house_member e m hm with ⟨rfl, rfl⟩ | ⟨rfl, rfl⟩ | ⟨rfl, rfl⟩ <;> decide
  once := by decide +kernel
  size := by decide +kernel
  oneEntry := fun e f m m' he hf h1 h2 => by
    rcases house_member e m he with ⟨rfl, rfl⟩ | ⟨rfl, rfl⟩ | ⟨rfl, rfl⟩ <;>
      rcases house_member f m' hf with ⟨rfl, rfl⟩ | ⟨rfl, rfl⟩ | ⟨rfl, rfl⟩ <;> simp at h1 h2 ⊢
  free := by decide +kernel
  names := fun n n' _ _ _ _ => by
    have : ∀ n, (house.net n).name = noName := by decide +kernel
    exact this n
  stations := fun e m h => by
    rcases house_member e m h with ⟨-, rfl⟩ | ⟨-, rfl⟩ | ⟨-, rfl⟩ <;> decide +kernel

theorem house_talkers : Talkers house where
  sorted := by decide +kernel
  room := by decide +kernel
  origins := by decide +kernel
  allowed := by decide +kernel
  rule := by decide +kernel
  lists := fun i n => by
    have h1 : ∀ n, house.talkersOf n = if n = 0 then [0] else [] := by decide +kernel
    have h2 : ∀ i n, house.intent i n = if i = 0 ∧ n = 0 then
        some { station := 0, net := 0, key := some ⟨0, .auto, .held 0⟩, remote := some 50, arrival := some 0 } else none := by
      decide +kernel
    rw [h1, h2]
    by_cases hn : n = 0 <;> by_cases hi : i = 0 <;> simp [hn, hi]
  order := by decide +kernel
  owner := fun x h => by
    have : house.talk.allCall = none := by decide +kernel
    simp [this] at h

theorem house_planShapes : ∀ i, PlanShape i (house.plan i) := by
  intro i
  rw [house_plans i]
  split
  · exact (takes_of (s := house) (by subst_vars; decide +kernel)).shape
  · have h : ({} : Plan).holders ++ ({} : Plan).waiting = [] := by decide +kernel
    exact ⟨by rw [h]; simp, by simp, fun t => by rw [h]; simp, by simp, fun _ _ => rfl, fun _ _ _ => rfl⟩

theorem house_plansCurrent : PlansCurrent house :=
  ⟨house_keyMaps, house_links, house_netTables, house_talkers, house_calls, house_planShapes, fun i =>
    ⟨by revert i; decide +kernel, by revert i; decide +kernel, by revert i; decide +kernel⟩⟩

/-- The plans and what they follow do not depend on the port. -/
theorem plansCurrent_port {s : State} (h : PlansCurrent s) (p : Port) : PlansCurrent { s with port := p } :=
  ⟨{ h.keyMaps with }, { h.links with }, { h.netTables with }, { h.talkers with }, { h.calls with }, h.shapes,
    fun i => { h.plans i with }⟩

/-- In the buffer of the locked house a level of an entry in use is staged. -/
theorem lockedHouse_staged : StagedPresent lockedHouse := by
  intro w k v hw hv
  obtain rfl : w = ⟨0, #v[some 3, none, none, none, none, none, none, none], 100⟩ := (Option.some.inj hw).symm
  obtain rfl : k = 0 := by
    have : ∀ k : Fin 8, ((#v[some 3, none, none, none, none, none, none, none] : Vector (Option Int) 8).get k).isSome = true →
        k = 0 := by decide
    exact this k (by simp [hv])
  refine ⟨fun e he => ?_, fun i hi => ?_⟩
  · obtain rfl : e = 0 := Fin.ext he.symm
    decide +kernel
  · simp at hi; omega

theorem witness_StagedLevelsApply_targets :
    PlansCurrent lockedHouse ∧ lockedHouse.planInUse 1 = true ∧ ((lockedHouse.plan 1).slots.get 0).use = .active 0 :=
  ⟨plansCurrent_port house_plansCurrent _, by decide +kernel, by decide +kernel⟩

/-- The house has a listener in use with one candidate, and its candidates in the order they stand are in rank order. -/
theorem witness_NewPlanRanksCandidates :
    NetTables house ∧ Talkers house ∧ Calls house ∧ house.planInUse 1 = true
    ∧ (house.candidatesOf 1 = [heardAs 0] ∧ (heardAs 0).paths ≠ [])
    ∧ (house.candidatesOf 1).Perm (house.candidatesOf 1)
    ∧ (house.candidatesOf 1).Pairwise (fun c d => house.ranksBefore c d = true)
    ∧ ((crowded (upTo 9)).candidatesOf 0).Pairwise (fun c d => (crowded (upTo 9)).ranksBefore c d = true) := by
  refine ⟨house_netTables, house_talkers, house_calls, ?_, ?_, .refl _, ?_⟩ <;> decide +kernel

theorem house_cues : Cues house where
  size := by decide +kernel
  once := by decide +kernel
  entries := fun i e he => by
    have h : ∀ i, ∀ e ∈ (house.lamp i).queue,
        ((house.cue e.cue).any fun q => q.standing && decide (⟨i, some e.status⟩ ∈ q.targets)) = true := by decide +kernel
    have := h i e he
    cases hc : house.cue e.cue with
    | none => simp [hc] at this
    | some q => exact ⟨q, rfl, by simpa [hc] using this⟩
  targets := fun c q h hs => by
    have := all_some (f := fun c => (house.cue c).map fun q => (q, c)) (p := fun x => decide (x.1.standing = true →
      ∀ t ∈ x.1.targets, ∃ e ∈ (house.lamp t.station).queue, e.cue = x.2 ∧ t.status = some e.status)) (by decide +kernel)
      c (q, c) (by simp [h])
    exact of_decide_eq_true this hs
  lost := by decide +kernel
  stations := fun c q h => of_decide_eq_true
    (all_some (p := fun q : Cue => decide (q.stations.Nodup ∧ q.targets ≠ [])) (by decide +kernel) c q h)
  ready := fun c q h => of_decide_eq_true (all_some
    (p := fun q : Cue => decide (q.standing = true → (q.state = .ready ↔ q.policyMet = true))) (by decide +kernel) c q h)
  staged := fun c q h => of_decide_eq_true (all_some
    (p := fun q : Cue => decide (q.state = .staged → q.noAck = false ∧ ∀ x ∈ q.targets, x.status = none))
    (by decide +kernel) c q h)
  unconfirmed := fun c q h => of_decide_eq_true (all_some
    (p := fun q : Cue => decide (q.state ≠ .go → q.unconfirmed = false)) (by decide +kernel) c q h)
  timers := fun c q h => of_decide_eq_true (all_some (p := fun q : Cue => decide
    ((q.ackTimer.isSome = true → q.standing = true) ∧ (q.goTimer.isSome = true ↔ q.state = .go))) (by decide +kernel) c q h)
  labels := fun c d q x h k _ _ hp => by
    have h1 := (house_cue c q h).2.2.1
    have h2 := (house_cue d x k).2.2.1
    exact Fin.ext (by rw [← h1, ← h2, hp])

/-- The house has every invariant, and a step from it answers a next state: for StepsKeepRanges, StepsKeepLinks,
StepsKeepNetTables, StepsKeepTalkers, StepsKeepKeyMapsAndCalls, StepsKeepPlanShapes and StepsKeepCues. The locked house has
a write in its staging buffer. -/
theorem witness_StepsKeepInvariants :
    Ranges house ∧ KeyMaps house ∧ Links house ∧ NetTables house ∧ Talkers house ∧ Calls house
      ∧ (∀ i, PlanShape i (house.plan i)) ∧ Cues house ∧ PlansCurrent house ∧ (∃ u, step house = .next u)
      ∧ StagedPresent lockedHouse ∧ ∃ u, step lockedHouse = .next u :=
  ⟨house_ranges, house_keyMaps, house_links, house_netTables, house_talkers, house_calls, house_planShapes, house_cues,
    house_plansCurrent, ⟨house, rfl⟩, lockedHouse_staged, lockedHouse, rfl⟩

end Sys2Proof.Tests
end

/-! ## Good replies, and the slots without one under link supervision (R20, R26, R31) -/

namespace Sys2Proof.Machine

/-- Without a parity check no parity bit is an error (R20). -/
@[simp] theorem parityFails_none (data : Byte) (bit : Bool) : parityFails .none data bit = false := rfl

/-- The parity bit of mode ZERO is not checked (R20). -/
@[simp] theorem parityFails_zero (data : Byte) (bit : Bool) : parityFails .zero data bit = false := rfl

/-- A slot without a reply has no good one. -/
theorem goodKeys_of_chars_nil {x : BusSlot} (h : x.chars = []) (k : Kind) : x.goodKeys k = none := by
  simp only [BusSlot.goodKeys, h]

/-- Four characters are a good reply when they meet the conditions that R26 puts on their values. -/
theorem goodKeys_of_four {x : BusSlot} {c1 c2 c3 c4 : ReplyChar} (h : x.chars = [c1, c2, c3, c4]) (k : Kind)
    (keys : BitVec 8) :
    x.goodKeys k = some keys ↔
      x.extra = false ∧ (∀ c ∈ x.chars, c.framingError = false ∧ c.parityError = false)
        ∧ c1.data + c2.data + c3.data + c4.data = 0
        ∧ c1.data = 0x40#8 + BitVec.ofNat 8 x.address.val ∧ c3.data = k.code ∧ c2.data = keys := by
  simp [BusSlot.goodKeys, h, natByte, and_assoc]

/-- A good reply has exactly four characters. -/
theorem four_chars_of_goodKeys {x : BusSlot} {k : Kind} {keys : BitVec 8} (h : x.goodKeys k = some keys) :
    ∃ c1 c2 c3 c4, x.chars = [c1, c2, c3, c4] := by
  unfold BusSlot.goodKeys at h
  split at h
  · next c1 c2 c3 c4 hc => exact ⟨c1, c2, c3, c4, hc⟩
  · cases h

/-- The six conditions of R26. -/
theorem goodKeys_eq_some_iff (x : BusSlot) (k : Kind) (keys : BitVec 8) :
    x.goodKeys k = some keys ↔
      ∃ c1 c2 c3 c4, x.chars = [c1, c2, c3, c4] ∧ x.extra = false
        ∧ (∀ c ∈ x.chars, c.framingError = false ∧ c.parityError = false)
        ∧ c1.data + c2.data + c3.data + c4.data = 0
        ∧ c1.data = 0x40#8 + BitVec.ofNat 8 x.address.val ∧ c3.data = k.code ∧ c2.data = keys := by
  constructor
  · intro h
    obtain ⟨c1, c2, c3, c4, hc⟩ := four_chars_of_goodKeys h
    exact ⟨c1, c2, c3, c4, hc, (goodKeys_of_four hc k keys).mp h⟩
  · rintro ⟨c1, c2, c3, c4, hc, hgood⟩
    exact (goodKeys_of_four hc k keys).mpr hgood

/-- A slot without a good reply is a missed one (R31). -/
theorem superviseSlot_of_not_good {s : State} {b : BusNo} {x : BusSlot} (hd : x.discarded = false)
    (hg : x.goodKeys (s.station (stationAt b x.address)).kind = none) :
    s.superviseSlot b x = s.missedSlot (stationAt b x.address) := by
  simp [State.superviseSlot, hd, hg]

/-- A slot with a bad reply is supervised as the same slot with no reply: both are missed slots of its station. -/
theorem superviseSlot_bad_eq_silent {s : State} {b : BusNo} {x : BusSlot} (hd : x.discarded = false)
    (hg : x.goodKeys (s.station (stationAt b x.address)).kind = none) :
    s.superviseSlot b x = s.superviseSlot b { x with chars := [], extra := false } :=
  calc s.superviseSlot b x
    _ = s.missedSlot (stationAt b x.address) := superviseSlot_of_not_good hd hg
    _ = s.superviseSlot b { x with chars := [], extra := false } :=
      (superviseSlot_of_not_good (x := { x with chars := [], extra := false }) hd (goodKeys_of_chars_nil rfl _)).symm

/-- Settles O44: R26's conditions are read off the reply of four characters, and a bad reply and none are both missed
slots. -/
theorem goodRepliesMeetR26 : Obligations.GoodRepliesMeetR26 :=
  ⟨fun data bit => ⟨parityFails_none data bit, parityFails_zero data bit⟩,
    fun _ _ _ hd hg => superviseSlot_bad_eq_silent hd hg,
    goodKeys_eq_some_iff⟩

end Sys2Proof.Machine

/-! ## Conversions of levels, thresholds and terms (R111, R112, R116, R121) -/

namespace Sys2Proof.Machine

/-- R112's attenuation by `d` steps of a twelfth of an octave, of a full scale of `32768 * m`: a coefficient has `m = 1`, a
gate threshold `m = 256`. -/
def attenuated (m d : Nat) : Nat := levelTable.getD (d % 12) 0 * m / 2 ^ (d / 12)

/-- The entry after the last one of the table is half the first. -/
def nextEntry (r : Nat) : Nat := if r = 11 then 16384 else levelTable.getD (r + 1) 0

/-- Within the table and from one octave to the next, the entries fall by at least 974. -/
theorem nextEntry_add_le : ∀ r < 12, nextEntry r + 974 ≤ levelTable.getD r 0 := by decide

/-- The entries are `32768 * 2^(-r/12)` to the nearest whole number, with the root cleared (R112). -/
theorem levelTable_nearest : ∀ r < 12,
    (2 * levelTable.getD r 0 - 1) ^ 12 * 2 ^ r ≤ 65536 ^ 12
      ∧ 65536 ^ 12 ≤ (2 * levelTable.getD r 0 + 1) ^ 12 * 2 ^ r := by decide

/-- One more step of attenuation takes the next entry at the same power of two. -/
theorem attenuated_succ (m d : Nat) : attenuated m (d + 1) = nextEntry (d % 12) * m / 2 ^ (d / 12) := by
  by_cases hr : d % 12 = 11
  · have hr' : (d + 1) % 12 = 0 := by omega
    have hq : (d + 1) / 12 = d / 12 + 1 := by omega
    have hhalf : levelTable.getD 0 0 * m = 16384 * m * 2 := by simp only [levelTable, List.getD_cons_zero]; omega
    rw [attenuated, nextEntry, if_pos hr, hr', hq, hhalf, pow_succ, Nat.mul_div_mul_right _ _ (by decide)]
  · have hr' : (d + 1) % 12 = d % 12 + 1 := by omega
    have hq : (d + 1) / 12 = d / 12 := by omega
    rw [attenuated, nextEntry, if_neg hr, hr', hq]

theorem attenuated_antitone (m : Nat) : Antitone (attenuated m) := by
  refine antitone_nat_of_succ_le fun d => ?_
  have hdrop := nextEntry_add_le (d % 12) (Nat.mod_lt d (by decide))
  rw [attenuated_succ, attenuated]
  exact Nat.div_le_div_right (Nat.mul_le_mul_right m (by omega))

/-- A step shows in the quotient while the least fall of the table is no smaller than the divisor. -/
theorem attenuated_succ_lt {m d : Nat} (h : 2 ^ (d / 12) ≤ 974 * m) : attenuated m (d + 1) < attenuated m d := by
  have hdrop := Nat.mul_le_mul_right m (nextEntry_add_le (d % 12) (Nat.mod_lt d (by decide)))
  rw [attenuated_succ, attenuated]
  calc nextEntry (d % 12) * m / 2 ^ (d / 12)
    _ < nextEntry (d % 12) * m / 2 ^ (d / 12) + 1 := Nat.lt_succ_self _
    _ = (nextEntry (d % 12) * m + 2 ^ (d / 12)) / 2 ^ (d / 12) := (Nat.add_div_right _ (Nat.two_pow_pos _)).symm
    _ ≤ levelTable.getD (d % 12) 0 * m / 2 ^ (d / 12) := Nat.div_le_div_right (by rw [Nat.add_mul] at hdrop; omega)

/-! ### Coefficients (R111, R112) -/

theorem coefficientOf_of_lt {l : Int} (h : l < -144) : coefficientOf l = 0 := if_pos h

theorem coefficientOf_of_ge {l : Int} (h : -144 ≤ l) : coefficientOf l = attenuated 1 (24 - min l 24).toNat := by
  rw [coefficientOf, if_neg (by omega), attenuated, Nat.mul_one]

/-- The coefficient `d` below the highest level. -/
theorem coefficientOf_sub {d : Nat} (h : d ≤ 168) : coefficientOf (24 - d) = attenuated 1 d := by
  rw [coefficientOf_of_ge (by omega), show (24 - min (24 - (d : Int)) 24).toNat = d by omega]

theorem coefficientOf_of_gt {l : Int} (h : 24 < l) : coefficientOf l = 32768 := by
  rw [coefficientOf_of_ge (by omega), show (24 - min l 24).toNat = 0 by omega]
  rfl

/-- Level 0 is unity for a term. -/
theorem coefficientOf_zero : coefficientOf 0 = 8192 := by decide

theorem two_le_coefficientOf_sub {d : Nat} (h : d ≤ 168) : 2 ≤ coefficientOf (24 - d) :=
  calc 2
    _ = attenuated 1 168 := by decide
    _ ≤ attenuated 1 d := attenuated_antitone 1 h
    _ = coefficientOf (24 - d) := (coefficientOf_sub h).symm

theorem coefficientOf_mono {k l : Int} (h : k ≤ l) : coefficientOf k ≤ coefficientOf l := by
  by_cases hk : k < -144
  · rw [coefficientOf_of_lt hk]
    exact Nat.zero_le _
  · rw [coefficientOf_of_ge (by omega), coefficientOf_of_ge (by omega)]
    exact attenuated_antitone 1 (by omega)

theorem coefficientOf_le (l : Int) : coefficientOf l ≤ 32768 :=
  calc coefficientOf l
    _ ≤ coefficientOf (max l 25) := coefficientOf_mono (le_max_left l 25)
    _ = 32768 := coefficientOf_of_gt (by omega)

/-! ### Gate thresholds (R121) -/

theorem thresholdOf_eq (l : Int) : thresholdOf l = attenuated 256 (-l).toNat := rfl

/-- Down to -128 the divisor stays below the least fall of the scaled table, so every threshold has a magnitude of its
own. -/
theorem thresholdOf_strictMono {l m : Int} (hl : -128 ≤ l) (hlm : l < m) (hm : m < 0) : thresholdOf l < thresholdOf m := by
  have hpow : 2 ^ ((-m).toNat / 12) ≤ 974 * 256 :=
    calc 2 ^ ((-m).toNat / 12)
      _ ≤ 2 ^ 10 := Nat.pow_le_pow_right (by decide) (by omega)
      _ ≤ 974 * 256 := by decide
  calc thresholdOf l
    _ ≤ attenuated 256 ((-m).toNat + 1) := attenuated_antitone 256 (by omega)
    _ < thresholdOf m := attenuated_succ_lt hpow

/-! ### Terms (R116) -/

/-- A term is the whole number of 8192ths below the product, negative products included. -/
theorem termOf_bounds (x : Int) (c : Nat) : 8192 * termOf x c ≤ x * c ∧ x * c < 8192 * (termOf x c + 1) := by
  rw [termOf, Int.fdiv_eq_ediv_of_nonneg _ (by decide)]
  omega

/-- The coefficient of level 0 passes a sample as it is. -/
theorem termOf_unity (x : Int) : termOf x 8192 = x := Int.mul_fdiv_cancel x (by decide)

/-- Settles O47: coefficients and thresholds are both attenuations by the table, which falls at every step, and a term is a
floor. -/
theorem gainConversions : Obligations.GainConversions :=
  ⟨levelTable_nearest,
    fun d hd => ⟨by rw [coefficientOf_sub hd, attenuated, Nat.mul_one]; rfl, two_le_coefficientOf_sub hd⟩,
    fun _ => coefficientOf_of_gt, fun _ => coefficientOf_of_lt, coefficientOf_le, coefficientOf_zero,
    fun _ _ => coefficientOf_mono,
    fun d _ _ => by rw [thresholdOf_eq, neg_neg, Int.toNat_natCast]; rfl,
    fun _ _ hl hlm hm => thresholdOf_strictMono hl hlm (by omega),
    termOf_bounds, termOf_unity⟩

end Sys2Proof.Machine

/-! ## Notices: the records, the pending set, the mask and the attention line (R171 to R174) -/

namespace Sys2Proof.Machine

open Sys2Proof.Safety

/-! ### The kinds and their places -/

/-- The list of kinds stands in the order of their places. -/
theorem allNoticeKinds_place (k : NoticeKind) : allNoticeKinds[k.place.val]? = some k := by cases k <;> rfl

theorem mem_allNoticeKinds (k : NoticeKind) : k ∈ allNoticeKinds := List.mem_of_getElem? (allNoticeKinds_place k)

theorem NoticeKind.place_injective : Function.Injective NoticeKind.place := by
  intro j k h
  have hj := allNoticeKinds_place j
  rw [h, allNoticeKinds_place k] at hj
  exact (Option.some.inj hj).symm

@[simp] theorem NoticeKind.place_inj {j k : NoticeKind} : j.place = k.place ↔ j = k := place_injective.eq_iff

/-! ### Raising -/

theorem raiseRecord_none (subject extra : Nat) :
    raiseRecord none subject extra = { count := 1, first := subject, latest := subject, extra } := rfl

/-- The count saturates at 255 and the first subject is kept (R172). -/
theorem raiseRecord_some (p : PendingNotice) (subject extra : Nat) :
    raiseRecord (some p) subject extra =
      { count := min (p.count + 1) 255, first := p.first, latest := subject, extra } := by
  have hcount : (if p.count < 255 then p.count + 1 else 255) = min (p.count + 1) 255 := by split <;> omega
  simp only [raiseRecord, hcount]

/-- A raise leaves a count in 1..255 whatever the count was before. -/
theorem raiseRecord_count_bounds (r : Option PendingNotice) (subject extra : Nat) :
    1 ≤ (raiseRecord r subject extra).count ∧ (raiseRecord r subject extra).count ≤ 255 := by
  cases r with
  | none => simp only [raiseRecord_none]; omega
  | some p => simp only [raiseRecord_some]; omega

/-- A raise writes the record of its own kind and reads no other. -/
theorem pendingOf_raise (s : State) (j k : NoticeKind) (subject extra : Nat) :
    (s.raise k subject extra).notices.pendingOf j =
      if j = k then some (raiseRecord (s.notices.pendingOf k) subject extra) else s.notices.pendingOf j := by
  simp [NoticeUnit.pendingOf, get_modifyAt]

theorem pendingOf_raise_self (s : State) (k : NoticeKind) (subject extra : Nat) :
    (s.raise k subject extra).notices.pendingOf k = some (raiseRecord (s.notices.pendingOf k) subject extra) := by
  rw [pendingOf_raise, if_pos rfl]

theorem pendingOf_raise_ne (s : State) {j k : NoticeKind} (h : j ≠ k) (subject extra : Nat) :
    (s.raise k subject extra).notices.pendingOf j = s.notices.pendingOf j := by
  rw [pendingOf_raise, if_neg h]

/-- The raised kind gets a count in range, and every other kind keeps its own. -/
theorem raise_keeps_counts {s : State} (h : ∀ j p, s.notices.pendingOf j = some p → 1 ≤ p.count ∧ p.count ≤ 255)
    (k : NoticeKind) (subject extra : Nat) (j : NoticeKind) (p : PendingNotice)
    (hp : (s.raise k subject extra).notices.pendingOf j = some p) : 1 ≤ p.count ∧ p.count ≤ 255 := by
  by_cases hj : j = k
  · subst hj
    rw [pendingOf_raise_self] at hp
    exact Option.some.inj hp ▸ raiseRecord_count_bounds ..
  · rw [pendingOf_raise_ne s hj] at hp
    exact h j p hp

/-- Settles O4: a raise writes `raiseRecord` to the entry of its kind, and places of different kinds differ. -/
theorem noticeRaiseUpdates : Obligations.NoticeRaiseUpdates := by
  intro s k subject extra
  refine ⟨?_, fun j hj => pendingOf_raise_ne s hj .., raise_frame, fun h => raise_keeps_counts h k subject extra⟩
  rw [pendingOf_raise_self]
  cases s.notices.pendingOf k with
  | none => rw [raiseRecord_none]
  | some p => rw [raiseRecord_some]

/-! ### The pending set and the attention line -/

theorem getLsbD_placeBit (j k : NoticeKind) : (1#9 <<< j.place.val).getLsbD k.place.val = decide (k = j) := by
  have htwo : 1#9 <<< j.place.val = BitVec.twoPow 9 j.place.val := rfl
  rw [htwo, BitVec.getLsbD_twoPow]
  simp [← Fin.ext_iff, eq_comm]

/-- A bit of a set gathered kind by kind is set when it was at first, or when a pending kind of the list has its place. -/
theorem getLsbD_foldl_pending (u : NoticeUnit) (k : NoticeKind) : ∀ (ks : List NoticeKind) (acc : BitVec 9),
    (ks.foldl (fun acc j => if (u.pendingOf j).isSome then acc ||| (1#9 <<< j.place.val) else acc) acc).getLsbD
        k.place.val =
      (acc.getLsbD k.place.val || (decide (k ∈ ks) && (u.pendingOf k).isSome))
  | [], acc => by simp
  | j :: ks, acc => by
    rw [List.foldl_cons, getLsbD_foldl_pending u k ks]
    by_cases hk : k = j
    · subst hk
      cases (u.pendingOf k).isSome <;> simp
    · split <;>
        simp only [getLsbD_placeBit, BitVec.getLsbD_or, List.mem_cons, hk, decide_false, false_or, Bool.or_false]

/-- The pending set holds exactly the pending kinds, each at its place (R174). -/
theorem getLsbD_pendingSet (u : NoticeUnit) (k : NoticeKind) :
    u.pendingSet.getLsbD k.place.val = (u.pendingOf k).isSome := by
  rw [NoticeUnit.pendingSet, getLsbD_foldl_pending]
  simp [mem_allNoticeKinds]

/-- The line is asserted for a pending kind that is not masked, once start-up has ended (R171, R174). -/
theorem attention_iff (s : State) :
    s.attention = true ↔ s.phase = .running ∧
      ∃ k : NoticeKind, (s.notices.pendingOf k).isSome = true ∧ s.notices.mask.getLsbD k.place.val = false := by
  simp [State.attention, mem_allNoticeKinds]

/-! ### The mask -/

/-- The state with the mask written. -/
def State.setNoticeMask (s : State) (m : BitVec 9) : State := { s with notices := { s.notices with mask := m } }

@[simp] theorem State.setNoticeMask_records (s : State) (m : BitVec 9) :
    (s.setNoticeMask m).notices.records = s.notices.records := rfl

theorem setNoticeMask_frame {s : State} {m : BitVec 9} : onlyChanges [.noticeMask] s (s.setNoticeMask m) := by
  intro p hp; cases p <;> simp_all [Part.same, State.setNoticeMask]

theorem best_of_records_eq {u v : NoticeUnit} (h : u.records = v.records) : u.best = v.best := by
  simp only [NoticeUnit.best, NoticeUnit.pendingOf, h]

theorem noticeTake_of_best_none {s : State} (h : s.notices.best = none) : s.noticeTake = done s := by
  simp only [State.noticeTake, h]

theorem noticeTake_of_best_some {s : State} {k : NoticeKind} {p : PendingNotice} (h : s.notices.best = some (k, p)) :
    s.noticeTake =
      done (s.takeNotice k p) (value3 (natByte k.code) (natByte p.count) (natByte p.latest)) := by
  simp only [State.noticeTake, h]

/-- What a TAKE returns and clears follows from the pending records alone. -/
theorem noticeTake_of_records_eq {s u : State} (h : u.notices.records = s.notices.records) :
    u.noticeTake.value = s.noticeTake.value
      ∧ u.noticeTake.state.notices.records = s.noticeTake.state.notices.records := by
  have hb : u.notices.best = s.notices.best := best_of_records_eq h
  cases hs : s.notices.best with
  | none =>
    rw [noticeTake_of_best_none hs, noticeTake_of_best_none (hb.trans hs)]
    exact ⟨rfl, h⟩
  | some x =>
    rw [noticeTake_of_best_some hs, noticeTake_of_best_some (hb.trans hs)]
    exact ⟨rfl, by simp only [done_state, State.takeNotice, h]⟩

/-! ### NOTICE MASK -/

/-- The answer of NOTICE MASK: the mask in bits 0..8 and the pending set in bits 12..20 (R178). -/
def maskAnswer (pending mask : BitVec 9) : BitVec 24 := 0#3 ++ pending ++ 0#3 ++ mask

/-- The fields of the answer from the lowest up, each read with the widths of those below it taken off. -/
theorem getLsbD_maskAnswer (pending mask : BitVec 9) (i : Nat) :
    (maskAnswer pending mask).getLsbD i =
      if i < 9 then mask.getLsbD i else if i - 9 < 3 then false
      else if i - 9 - 3 < 9 then pending.getLsbD (i - 9 - 3) else false :=
  calc (maskAnswer pending mask).getLsbD i
    _ = (0#3 ++ pending ++ 0#3 ++ mask).getLsbD i := rfl
    _ = _ := by simp only [BitVec.getLsbD_append, BitVec.getLsbD_zero]

theorem getLsbD_maskAnswer_mask (pending mask : BitVec 9) (j : Fin 9) :
    (maskAnswer pending mask).getLsbD j.val = mask.getLsbD j.val := by
  rw [getLsbD_maskAnswer, if_pos j.isLt]

theorem getLsbD_maskAnswer_pending (pending mask : BitVec 9) (j : Fin 9) :
    (maskAnswer pending mask).getLsbD (12 + j.val) = pending.getLsbD j.val := by
  have hj : 12 + j.val - 9 - 3 = j.val := by omega
  rw [getLsbD_maskAnswer, if_neg (by omega), if_neg (by omega), hj, if_pos j.isLt]

theorem getLsbD_maskAnswer_gaps (pending mask : BitVec 9) (j : Fin 3) :
    (maskAnswer pending mask).getLsbD (9 + j.val) = false ∧ (maskAnswer pending mask).getLsbD (21 + j.val) = false := by
  constructor
  · rw [getLsbD_maskAnswer, if_neg (by omega), if_pos (by omega)]
  · rw [getLsbD_maskAnswer, if_neg (by omega), if_neg (by omega), if_neg (by omega)]

/-- NOTICE MASK that is processed writes the mask and answers. -/
theorem exec_noticeMask {s : State} {t : Time} {r : BitVec 16} {a : BitVec 32} (h : ready s .noticeMask r a) :
    exec (.noticeMask t r a) s =
      .next (((s.clockTo t).setNoticeMask (a.extractLsb' 0 9)).answer ⟨.noticeMask, r, a⟩ .done
        (maskAnswer s.notices.pendingSet (a.extractLsb' 0 9))) :=
  calc exec (.noticeMask t r a) s
    _ = execNoticeMask t r a s := rfl
    _ = _ := request_of_ready h

/-- Settles O6: the line and the answer are read bit by bit, and neither a raise nor a TAKE reads the mask. -/
theorem noticeMaskAndAttention : Obligations.NoticeMaskAndAttention := by
  refine ⟨attention_iff, fun s m k subject extra => ?_, fun s t r a h => ?_⟩
  · exact ⟨rfl, noticeTake_of_records_eq (State.setNoticeMask_records s m)⟩
  · have hmask (j : Fin 9) : (a.extractLsb' 0 9).getLsbD j.val = a.getLsbD j.val := by simp
    refine ⟨_, _, exec_noticeMask h, ⟨rfl, rfl, rfl⟩, fun j => ⟨hmask j, ?_⟩, fun k => ?_,
      getLsbD_maskAnswer_gaps _ _, ?_⟩
    · rw [getLsbD_maskAnswer_mask, hmask]
    · have hbit : 11 + k.code = 12 + k.place.val := by rw [NoticeKind.code]; omega
      rw [hbit, getLsbD_maskAnswer_pending, getLsbD_pendingSet]
    · refine onlyChanges_mono (ps := [.clock] ++ [.noticeMask] ++ [.reply, .inProcess]) ?_ (by decide)
      exact onlyChanges_append (onlyChanges_append clockTo_frame setNoticeMask_frame) answer_frame

end Sys2Proof.Machine
